-- ==== Sys2Proof/Word.lean ====
section
/-! DEFINITION. The word types of the hardware and the geometry numbers of R5. -/

namespace Sys2Proof

/-- `u8` of R8: every datum the core moves is one byte (R55). -/
abbrev Byte := BitVec 8

/-- `u32` of R8: one cell of the frame (R44, R229). -/
abbrev Cell32 := BitVec 32

/-- A column number, 7 bits with `W = 128` (R34). -/
abbrev Column := BitVec 7

/-- A page number, 4 bits (R35). -/
abbrev Page := BitVec 4

/-- An index into pixel memory: page in bits 10..7, column in bits 6..0 (R51). -/
abbrev PixAddr := BitVec 11

/-- Frame and pixel-memory width in columns, `W` of R5. -/
abbrev W : Nat := 128

/-- Frame height in rows, `H` of R5. -/
abbrev H : Nat := 128

/-- Number of pages, `PAGES` of R5. -/
abbrev PAGES : Nat := 16

/-- Number of cells of the frame, `W * H` (R44). -/
abbrev FRAME_CELLS : Nat := 16384

end Sys2Proof
end

