-- ==== Sys2Proof/Config.lean ====
section
/-! DEFINITION. The parameters a model takes (R5, and Part 1 of 93_implementation_defined.md), and the free values that
stand for the parameters the spec leaves OPEN. A parameter is constant for the life of a device; the state carries the
record `Params`, so that a claim about every state is a claim about every value of the parameters. -/

namespace Sys2Proof

/-- `C0_CLASS` of R5: the class byte 0xC0 decodes to under the decided map (R81, D5; log 7). What it means beside a
replaced `OPCODE_MAP` is the model's choice (log 30). -/
inductive C0Class where
  | comScanInc
  | pageSelect
deriving DecidableEq, Repr

/-- The named command classes of R74: the ones whose opcode byte the parameter `OPCODE_MAP` gives. -/
inductive NamedClass where
  | pageMode | vertMode | setContrast | segRemap0 | segRemap1 | allOnResume | allOnForced
  | normal | invert | setMux | displayOff | displayOn | comScanInc | comScanDec
  | setDispOffset | setClkDiv | setPrecharge | setComPins | setVcomDesel | setStartLine | nop
deriving DecidableEq, Repr

/-- The classes whose command carries a parameter byte (R76, R78). -/
def NamedClass.takesParam : NamedClass → Bool
  | .setContrast | .setMux | .setDispOffset | .setClkDiv | .setPrecharge | .setComPins
  | .setVcomDesel | .setStartLine => true
  | .pageMode | .vertMode | .segRemap0 | .segRemap1 | .allOnResume | .allOnForced | .normal
  | .invert | .displayOff | .displayOn | .comScanInc | .comScanDec | .nop => false

/-- `OPCODE_MAP`: byte value and named class (R74). The decided map gives each byte and each class one row; that in a
replaced map the first row of a byte counts is the model's choice. DESIGN CHOICE, unsafe, log 31. -/
abbrev OpcodeMap := List (Byte × NamedClass)

/-- `ARITY`: byte value and parameter count, "default 0 if absent"; a count is at most 7 (R76). -/
abbrev ArityTable := List (Byte × Fin 8)

/-- `SINK_BYTE_ORDER` (R229, D10): how the 4 bytes of a cell are laid out in the sink. Every value of the record is one
of the 24 orders: `first` picks one of the four byte lanes, `second` one of the three left, `third` one of the two left. -/
structure SinkByteOrder where
  first  : Fin 4
  second : Fin 3
  third  : Fin 2
deriving DecidableEq, Repr, Inhabited

/-- The parameters of R5 that are constant for the life of a device. `X_OFFSET` is the register `x_offset` of the state
(R33); `PIXMEM_INIT` and `FRAME_INIT` are arguments of the construction. -/
structure Params where
  /-- `OPCODE_MAP` (R74, D3). -/
  opcodeMap       : OpcodeMap
  /-- `ARITY` (R76, D4). -/
  arityTable      : ArityTable
  /-- `C0_CLASS` (R81, D5). -/
  c0Class         : C0Class
  /-- `REDRAW_ON_NOP` (R141, D7). -/
  redrawOnNop     : Bool
  /-- `REDRAW_ON_UNKNOWN` (R141, D7). -/
  redrawOnUnknown : Bool
  /-- `RENDER_DELAY`, in units of 1 microsecond (R221, D13); no rule reads it. -/
  renderDelay     : Nat
  /-- `PIXEL_LIT` (R228, D10). -/
  pixelLit        : Cell32
  /-- `PIXEL_DARK` (R228, D10). -/
  pixelDark       : Cell32
  /-- `SINK_BYTE_ORDER` (R229, D10). -/
  sinkByteOrder   : SinkByteOrder
  /-- `BUS_ADDR` (R106, D15); matched by the excluded transport, read by no rule. -/
  busAddr         : BitVec 7
deriving DecidableEq, Repr

/-- `ARITY(op)`: the static table's entry, 0 if absent (R76). -/
def Params.arity (p : Params) (op : Byte) : Fin 8 :=
  (p.arityTable.lookup op).getD 0

/-- Line 1 of R75: the named class of a byte. 0xC0 is on the list only when `C0_CLASS = ComScanInc` (log 7). With the
decided map that gives 0xC0 to COMSCANINC or to SETPAGE 0 (R81, R169). With a replaced map the spec leaves the two
parameters' interplay open: under `ComScanInc` the map's row for 0xC0 counts, whatever class it names, and with no such
row 0xC0 falls to line 4, SETPAGE 0; under `PageSelect` a row for 0xC0 is dropped. DESIGN CHOICE, unsafe, log 30. -/
def Params.namedAt (p : Params) (op : Byte) : Option NamedClass :=
  if op = 0xC0 ∧ p.c0Class = .pageSelect then none else p.opcodeMap.lookup op

/-- The byte that encodes a named class: the first row of the map whose byte decodes to the class (R74, R75); a replaced
map may give a class several bytes (log 31). -/
def Params.opcodeOf (p : Params) (c : NamedClass) : Option Byte :=
  (p.opcodeMap.find? fun r => decide (p.namedAt r.1 = some c)).map (·.1)

/-- The lit and the dark pixel value are distinct (D10). -/
abbrev Params.binary (p : Params) : Prop := p.pixelLit ≠ p.pixelDark

/-- `X_OFFSET`, OPEN (D9): a free value. DESIGN CHOICE, safe, log 10. -/
opaque Config.xOffset : Int

/-- `BUS_ADDR`, OPEN (D15): a free value. DESIGN CHOICE, safe, log 12. -/
opaque Config.busAddr : BitVec 7

/-- `PIXEL_DARK`, OPEN (D10): a free value. DESIGN CHOICE, safe, log 11. -/
opaque Config.pixelDark : Cell32

/-- How far `PIXEL_LIT` lies above `PIXEL_DARK`, less 1: a free value, so that the two are any distinct pair (D10).
DESIGN CHOICE, safe, log 11. -/
opaque Config.pixelGap : Fin 4294967295

/-- `PIXEL_LIT`, OPEN (D10): free but for being distinct from `PIXEL_DARK`. DESIGN CHOICE, safe, log 11. -/
def Config.pixelLit : Cell32 :=
  Config.pixelDark + BitVec.ofNat 32 (Config.pixelGap.val + 1)

/-- `SINK_BYTE_ORDER`, OPEN (D10): a free value. DESIGN CHOICE, safe, log 11. -/
opaque Config.sinkByteOrder : SinkByteOrder

/-- `FRAME_INIT`, OPEN (D22): a free value for each cell. DESIGN CHOICE, safe, log 14. -/
opaque Config.frameInit : Nat → Cell32

end Sys2Proof
end

