-- ==== Sys2Proof/Syntax.lean ====
section
/-! DEFINITION. The instruction set: one constructor for each row of spec/opcode_table.json (R74, and R103, R200, R170). -/

namespace Sys2Proof

/-- An instruction. A byte on the bus is a control byte, a command byte or a data byte (R70); a command is its opcode
and its parameter bytes (R72). Fields are those of R71, R73 and R78. -/
inductive Instr where
  /-- CTRL (R71, R103): `co` is bit 7 (0: continuous), `dc` bit 6 (1: data), `reserved` bits 5..0, ignored. -/
  | ctrl (co dc : Bool) (reserved : BitVec 6)
  /-- DATA (R73, R200): eight pixel bits. -/
  | data (d : Byte)
  /-- SETCOLLO (R166): column bits 3..0. -/
  | setColLo (n : BitVec 4)
  /-- SETCOLHI (R167): column bits 6..4. -/
  | setColHi (n : BitVec 3)
  /-- PAGEMODE (R148). -/
  | pageMode
  /-- VERTMODE (R149). -/
  | vertMode
  /-- SETCONTRAST (R142). -/
  | setContrast (p : Byte)
  /-- SEGREMAP0 (R154). -/
  | segRemap0
  /-- SEGREMAP1 (R155). -/
  | segRemap1
  /-- ALLONRESUME (R162). -/
  | allOnResume
  /-- ALLONFORCED (R163). -/
  | allOnForced
  /-- NORMAL (R146). -/
  | normal
  /-- INVERT (R147). -/
  | invert
  /-- SETMUX (R159): the parameter is ignored. -/
  | setMux (p : Byte)
  /-- DISPLAYOFF (R143). -/
  | displayOff
  /-- DISPLAYON (R144). -/
  | displayOn
  /-- SETPAGE (R168): the page. -/
  | setPage (n : BitVec 4)
  /-- COMSCANINC (R152). -/
  | comScanInc
  /-- COMSCANDEC (R153). -/
  | comScanDec
  /-- SETDISPOFFSET (R158): the parameter is ignored. -/
  | setDispOffset (p : Byte)
  /-- SETCLKDIV (R150). -/
  | setClkDiv (p : Byte)
  /-- SETPRECHARGE (R151). -/
  | setPrecharge (p : Byte)
  /-- SETCOMPINS (R161): the parameter is ignored. -/
  | setComPins (p : Byte)
  /-- SETVCOMDESEL (R160): the parameter is ignored. -/
  | setVcomDesel (p : Byte)
  /-- SETSTARTLINE (R156). -/
  | setStartLine (p : Byte)
  /-- NOP (R164). -/
  | nop
  /-- UNRECOGNIZED (R170): the opcode byte. -/
  | unrecognized (op : Byte)
deriving DecidableEq, Repr

/-- What a byte on the bus is; the receiver's state alone decides it (R70). -/
inductive ByteClass where
  | control
  | command
  | data
deriving DecidableEq, Repr

/-- The kind of byte that carries an instruction (R70). -/
def Instr.byteClass : Instr → ByteClass
  | .ctrl _ _ _ => .control
  | .data _ => .data
  | .setColLo _ | .setColHi _ | .pageMode | .vertMode | .setContrast _ | .segRemap0 | .segRemap1
  | .allOnResume | .allOnForced | .normal | .invert | .setMux _ | .displayOff | .displayOn
  | .setPage _ | .comScanInc | .comScanDec | .setDispOffset _ | .setClkDiv _ | .setPrecharge _
  | .setComPins _ | .setVcomDesel _ | .setStartLine _ | .nop | .unrecognized _ => .command

/-- The named class an instruction belongs to, if its opcode byte comes from `OPCODE_MAP` (R74). -/
def Instr.namedClass : Instr → Option NamedClass
  | .ctrl _ _ _ | .data _ | .setColLo _ | .setColHi _ | .setPage _ | .unrecognized _ => none
  | .pageMode => some .pageMode
  | .vertMode => some .vertMode
  | .setContrast _ => some .setContrast
  | .segRemap0 => some .segRemap0
  | .segRemap1 => some .segRemap1
  | .allOnResume => some .allOnResume
  | .allOnForced => some .allOnForced
  | .normal => some .normal
  | .invert => some .invert
  | .setMux _ => some .setMux
  | .displayOff => some .displayOff
  | .displayOn => some .displayOn
  | .comScanInc => some .comScanInc
  | .comScanDec => some .comScanDec
  | .setDispOffset _ => some .setDispOffset
  | .setClkDiv _ => some .setClkDiv
  | .setPrecharge _ => some .setPrecharge
  | .setComPins _ => some .setComPins
  | .setVcomDesel _ => some .setVcomDesel
  | .setStartLine _ => some .setStartLine
  | .nop => some .nop

end Sys2Proof
end

