-- ==== Sys2Proof/WellFormed.lean ====
section
/-! DEFINITION. The well-formed instructions: those that have an encoding under the device's parameters. -/

namespace Sys2Proof

/-- The byte lies in one of the three cursor ranges of R75, lines 2 to 4. -/
def inCursorRange (op : Byte) : Bool :=
  decide (op.toNat ≤ 0x17) || (decide (0xB0 ≤ op.toNat) && decide (op.toNat ≤ 0xC0))

/-- A named class has an opcode byte under the map and `C0_CLASS` (R74, R81), with room for its parameter (R76). -/
def Params.encodesNamed (p : Params) (c : NamedClass) : Bool :=
  match p.opcodeOf c with
  | none => false
  | some b => !c.takesParam || decide (0 < (p.arity b).val)

/-- An instruction has an encoding: its opcode byte decodes to its class (R75). Under `C0_CLASS = PageSelect` COMSCANINC
"has no encoding at all" (R152); an unrecognized opcode is a byte no line of R75 takes (R170); a cursor command's byte is
one that no named opcode takes (R75, named before ranges). -/
def wellFormed (p : Params) : Instr → Bool
  | .ctrl _ _ _ => true
  | .data _ => true
  | .setColLo n => (p.namedAt (0x0#4 ++ n)).isNone
  | .setColHi n => (p.namedAt (0x02#5 ++ n)).isNone
  | .setPage n => (p.namedAt (0xB#4 ++ n)).isNone
  | .unrecognized op => (p.namedAt op).isNone && !inCursorRange op
  | .pageMode => p.encodesNamed .pageMode
  | .vertMode => p.encodesNamed .vertMode
  | .setContrast _ => p.encodesNamed .setContrast
  | .segRemap0 => p.encodesNamed .segRemap0
  | .segRemap1 => p.encodesNamed .segRemap1
  | .allOnResume => p.encodesNamed .allOnResume
  | .allOnForced => p.encodesNamed .allOnForced
  | .normal => p.encodesNamed .normal
  | .invert => p.encodesNamed .invert
  | .setMux _ => p.encodesNamed .setMux
  | .displayOff => p.encodesNamed .displayOff
  | .displayOn => p.encodesNamed .displayOn
  | .comScanInc => p.encodesNamed .comScanInc
  | .comScanDec => p.encodesNamed .comScanDec
  | .setDispOffset _ => p.encodesNamed .setDispOffset
  | .setClkDiv _ => p.encodesNamed .setClkDiv
  | .setPrecharge _ => p.encodesNamed .setPrecharge
  | .setComPins _ => p.encodesNamed .setComPins
  | .setVcomDesel _ => p.encodesNamed .setVcomDesel
  | .setStartLine _ => p.encodesNamed .setStartLine
  | .nop => p.encodesNamed .nop

end Sys2Proof
end

