-- ==== Sys2Proof/Decode.lean ====
section
/-! DEFINITION. Decoding (R70 to R78): total, rejecting by name; the encoder written from the same tables; and the
parameters' values, `Params.sh1107`. -/

namespace Sys2Proof

/-- The class of an opcode byte (R75). -/
inductive OpClass where
  | named (c : NamedClass)
  | setColLo
  | setColHi
  | setPage
  | unrecognized
deriving DecidableEq, Repr

/-- `Class(op)`: the first matching line of R75; named opcodes come before the ranges (D5). -/
def classify (p : Params) (op : Byte) : OpClass :=
  match p.namedAt op with
  | some c => .named c
  | none =>
    if op.toNat ≤ 0x0F then .setColLo
    else if op.toNat ≤ 0x17 then .setColHi
    else if 0xB0 ≤ op.toNat ∧ op.toNat ≤ 0xC0 then .setPage
    else .unrecognized

/-- The instruction of a named class, with its parameter byte where it takes one (R72, R78). -/
def namedInstr (c : NamedClass) (par : Byte) : Instr :=
  match c with
  | .pageMode => .pageMode
  | .vertMode => .vertMode
  | .setContrast => .setContrast par
  | .segRemap0 => .segRemap0
  | .segRemap1 => .segRemap1
  | .allOnResume => .allOnResume
  | .allOnForced => .allOnForced
  | .normal => .normal
  | .invert => .invert
  | .setMux => .setMux par
  | .displayOff => .displayOff
  | .displayOn => .displayOn
  | .comScanInc => .comScanInc
  | .comScanDec => .comScanDec
  | .setDispOffset => .setDispOffset par
  | .setClkDiv => .setClkDiv par
  | .setPrecharge => .setPrecharge par
  | .setComPins => .setComPins par
  | .setVcomDesel => .setVcomDesel par
  | .setStartLine => .setStartLine par
  | .nop => .nop

/-- The command an opcode byte and a parameter byte make (R78): `lo4 = op[3:0]`, `hi3 = op[2:0]`, `pg = op[3:0]`. -/
def instrOf (p : Params) (op par : Byte) : Instr :=
  match classify p op with
  | .named c => namedInstr c par
  | .setColLo => .setColLo (op.extractLsb' 0 4)
  | .setColHi => .setColHi (op.extractLsb' 0 3)
  | .setPage => .setPage (op.extractLsb' 0 4)
  | .unrecognized => .unrecognized op

/-- A control byte's fields (R71). -/
def ctrlOf (b : Byte) : Instr :=
  .ctrl (b.getLsbD 7) (b.getLsbD 6) (b.extractLsb' 0 6)

/-- Why a list of bytes is no instruction. Only a list that ends too early is rejected: no byte value is illegal (R79). -/
inductive DecodeError where
  /-- There is no byte. -/
  | noByte
  /-- The command of this opcode lacks parameter bytes: it is incomplete (R123). -/
  | incomplete (op : Byte)
  /-- A replaced `ARITY` gives no byte to a class that reads one, so the bytes name no parameter (R76). -/
  | noParameter (op : Byte)
deriving DecidableEq, Repr

/-- The opcode's class reads a parameter byte (R76). -/
def opTakesParam (p : Params) (op : Byte) : Bool :=
  match classify p op with
  | .named c => c.takesParam
  | .setColLo | .setColHi | .setPage | .unrecognized => false

/-- Read one instruction from the head of a list of bytes that are all of one kind, and give the rest (R70 to R77). -/
def decode (p : Params) (k : ByteClass) : List Byte → Except DecodeError (Instr × List Byte)
  | [] => .error .noByte
  | b :: rest =>
    match k with
    | .control => .ok (ctrlOf b, rest)
    | .data => .ok (.data b, rest)
    | .command =>
      if rest.length < (p.arity b).val then .error (.incomplete b)
      else if opTakesParam p b && decide ((p.arity b).val = 0) then .error (.noParameter b)
      else .ok (instrOf p b (rest.headD 0), rest.drop (p.arity b).val)

/-- The first byte of an instruction (R71, R73, R74). For a class without an opcode byte, which no well-formed
instruction has, it answers 0. -/
def firstByte (p : Params) : Instr → Byte
  | .ctrl co dc r => BitVec.ofBool co ++ BitVec.ofBool dc ++ r
  | .data d => d
  | .setColLo n => 0x0#4 ++ n
  | .setColHi n => 0x02#5 ++ n
  | .setPage n => 0xB#4 ++ n
  | .unrecognized op => op
  | .pageMode => (p.opcodeOf .pageMode).getD 0
  | .vertMode => (p.opcodeOf .vertMode).getD 0
  | .setContrast _ => (p.opcodeOf .setContrast).getD 0
  | .segRemap0 => (p.opcodeOf .segRemap0).getD 0
  | .segRemap1 => (p.opcodeOf .segRemap1).getD 0
  | .allOnResume => (p.opcodeOf .allOnResume).getD 0
  | .allOnForced => (p.opcodeOf .allOnForced).getD 0
  | .normal => (p.opcodeOf .normal).getD 0
  | .invert => (p.opcodeOf .invert).getD 0
  | .setMux _ => (p.opcodeOf .setMux).getD 0
  | .displayOff => (p.opcodeOf .displayOff).getD 0
  | .displayOn => (p.opcodeOf .displayOn).getD 0
  | .comScanInc => (p.opcodeOf .comScanInc).getD 0
  | .comScanDec => (p.opcodeOf .comScanDec).getD 0
  | .setDispOffset _ => (p.opcodeOf .setDispOffset).getD 0
  | .setClkDiv _ => (p.opcodeOf .setClkDiv).getD 0
  | .setPrecharge _ => (p.opcodeOf .setPrecharge).getD 0
  | .setComPins _ => (p.opcodeOf .setComPins).getD 0
  | .setVcomDesel _ => (p.opcodeOf .setVcomDesel).getD 0
  | .setStartLine _ => (p.opcodeOf .setStartLine).getD 0
  | .nop => (p.opcodeOf .nop).getD 0

/-- The parameter byte of an instruction, 0 where it has none (R72). -/
def paramByte : Instr → Byte
  | .setContrast q | .setMux q | .setDispOffset q | .setClkDiv q | .setPrecharge q
  | .setComPins q | .setVcomDesel q | .setStartLine q => q
  | .ctrl _ _ _ | .data _ | .setColLo _ | .setColHi _ | .pageMode | .vertMode | .segRemap0
  | .segRemap1 | .allOnResume | .allOnForced | .normal | .invert | .displayOff | .displayOn
  | .setPage _ | .comScanInc | .comScanDec | .nop | .unrecognized _ => 0

/-- The bytes of an instruction: one byte for a control or data byte, the opcode and `ARITY(op)` parameter bytes for a
command, the first of them the operand and any further ones 0 (R72, R76). -/
def encode (p : Params) (i : Instr) : List Byte :=
  match i.byteClass with
  | .control | .data => [firstByte p i]
  | .command =>
    firstByte p i :: (paramByte i :: List.replicate 6 0).take (p.arity (firstByte p i)).val

/-- The opcode bytes of the named classes, as R74 gives them (decision D3 of the spec). PRESUMED by the spec from the
SH1107 datasheet, unsafe if wrong, log 5. -/
def OpcodeMap.sh1107 : OpcodeMap :=
  [(0x20, .pageMode), (0x21, .vertMode), (0x81, .setContrast), (0xA0, .segRemap0), (0xA1, .segRemap1),
   (0xA4, .allOnResume), (0xA5, .allOnForced), (0xA6, .normal), (0xA7, .invert), (0xA8, .setMux),
   (0xAE, .displayOff)] ++
  [(0xAF, .displayOn), (0xC0, .comScanInc), (0xC8, .comScanDec), (0xD3, .setDispOffset), (0xD5, .setClkDiv),
   (0xD9, .setPrecharge), (0xDA, .setComPins), (0xDB, .setVcomDesel), (0xDC, .setStartLine), (0xE3, .nop)]

/-- The parameter counts of R76 (decision D4 of the spec), 0 if absent. PRESUMED by the spec, unsafe if wrong, log 6. -/
def ArityTable.sh1107 : ArityTable :=
  [(0x81, 1), (0xA8, 1), (0xD3, 1), (0xD5, 1), (0xD9, 1), (0xDA, 1), (0xDB, 1), (0xDC, 1)]

/-- The parameters of R5 with the values the spec fixes; the OPEN ones are free values. -/
def Params.sh1107 : Params where
  opcodeMap       := OpcodeMap.sh1107
  arityTable      := ArityTable.sh1107
  c0Class         := .comScanInc
  redrawOnNop     := true
  redrawOnUnknown := false
  renderDelay     := 16667
  pixelLit        := Config.pixelLit
  pixelDark       := Config.pixelDark
  sinkByteOrder   := Config.sinkByteOrder
  busAddr         := Config.busAddr

/-- The parameters hold the opcode map of R74 and the arity table of R76; the others are anything. -/
abbrev Params.standardTables (p : Params) : Prop :=
  p.opcodeMap = OpcodeMap.sh1107 ∧ p.arityTable = ArityTable.sh1107

/-- The eight bytes of a table word: bit 0 is the least significant bit of the first byte; bits above `nbits` are 0. A
command is at most 8 bytes long (R40). -/
def tableBytes (nbits w : Nat) : List Byte :=
  (List.range 8).map fun k => BitVec.ofNat 8 ((w % 2 ^ nbits) >>> (8 * k))

/-- The instruction the decoder reads from a word of spec/opcode_table.json, taken as COMMAND bytes (the kind of a byte
is no property of the byte, R70; log 24). -/
def decodeTableWord (nbits w : Nat) : Option Instr :=
  match decode Params.sh1107 .command (tableBytes nbits w) with
  | .ok (i, _) => some i
  | .error _ => none

end Sys2Proof
end

