-- ==== Sys2Proof/Machine/State.lean ====
section
/-! DEFINITION. The machine's state (10_state.md, 20_memory.md), its reasons to stop, and its construction (R270). -/

namespace Sys2Proof.Machine

/-- Reasons for a fault. There are none: "There are no fatal error conditions in this core" (R250). -/
inductive Fault
deriving DecidableEq, Repr

/-- Reasons for a refusal. -/
inductive Refusal where
  /-- Raised by `exec` for an instruction without a meaning; every row has its meaning, so nothing raises it. Safe. -/
  | notModelled (mnemonic : String)
  /-- Raised by the step for a `TimerFire` while no render is pending: the spec's treatment is `refuse`, "the step does
  not exist" (R222, I23, D20). Safe for the core; a host that broke its duty is outside the model (log 3). -/
  | timerNotArmed
  /-- Raised by the construction for frame dimensions other than 128x128 (R6, R273, I21). Safe (log 19). -/
  | geometry (w h : Nat)
deriving DecidableEq, Repr

/-- `memory_mode` (R28). -/
inductive MemoryMode where
  | page
  | vertical
deriving DecidableEq, Repr

/-- The inputs of the core (R10). -/
inductive Event where
  /-- The start of a bus transaction (R100). -/
  | connect
  /-- One byte from the bus (R102). -/
  | write (b : Byte)
  /-- A bus read (R105). -/
  | read
  /-- The timer agent's callback (R222). -/
  | timerFire
deriving DecidableEq, Repr

/-- What the core answers its host and asks of it. -/
inductive Output where
  /-- The acknowledge of a `Write` (R101). -/
  | ack (value : Bool)
  /-- The byte a `Read` returns (R105). -/
  | readByte (b : Byte)
  /-- `ArmTimer(d)`: the host is asked for one `TimerFire` after the delay (R221). -/
  | armTimer (delay : Nat)
  /-- `Diag(op)`: the diagnostic that names an unrecognized opcode (R251). -/
  | diag (op : Byte)
deriving DecidableEq, Repr

/-- Pixel memory (R50): index and byte pairs, indices rising, no entry equal to what an unlisted index reads as. -/
abbrev Memory := List Host.Cell

/-- What an index that is not listed reads as. `PIXMEM_INIT` is OPEN; the suggested instance is all zero (D11).
DESIGN CHOICE, unsafe, log 13. -/
abbrev Memory.unlisted : Byte := 0

/-- The canonical form from an index on: indices rise, stay below 2048, and no entry holds the unlisted value. -/
def Memory.wfFrom (lo : Nat) : Memory → Bool
  | [] => true
  | (a, v) :: m =>
    decide (lo ≤ a) && decide (a < 2048) && decide (v ≠ Memory.unlisted) && Memory.wfFrom (a + 1) m

/-- The canonical form: equal memories are equal lists. -/
def Memory.wf (m : Memory) : Bool := Memory.wfFrom 0 m

/-- The frame, `frame[0 .. W*H-1] : u32` (R44). -/
abbrev Frame := Vector Cell32 FRAME_CELLS

/-- `n` cells from cell number `k` on. -/
def Frame.cellsFrom (f : Nat → Cell32) : Nat → Nat → List Cell32
  | 0, _ => []
  | n + 1, k => f k :: Frame.cellsFrom f n (k + 1)

theorem Frame.cellsFrom_length (f : Nat → Cell32) (n k : Nat) : (Frame.cellsFrom f n k).length = n := by
  induction n generalizing k with
  | zero => rfl
  | succ n ih => exact congrArg (· + 1) (ih (k + 1))

/-- The frame whose cell number `k` is `f k`. -/
def Frame.build (f : Nat → Cell32) : Frame :=
  ⟨⟨Frame.cellsFrom f FRAME_CELLS 0⟩, Frame.cellsFrom_length f FRAME_CELLS 0⟩

/-- The state: the Device State record, the frame (R44), the device's parameters, and the two queues that carry the
core's interfaces. -/
structure State where
  /-- `contrast` (R23). -/
  contrast      : Byte
  /-- `invert` (R24). -/
  invert        : Bool
  /-- `reverse_rows` (R25). -/
  reverseRows   : Bool
  /-- `segment_remap` (R26). -/
  segmentRemap  : Bool
  /-- `display_on` (R27). -/
  displayOn     : Bool
  /-- `memory_mode` (R28). -/
  memoryMode    : MemoryMode
  /-- `clock_divider` (R29). -/
  clockDivider  : Byte
  /-- `multiplex` (R30). -/
  multiplex     : Byte
  /-- `phase1` (R31). -/
  phase1        : BitVec 4
  /-- `phase2` (R31). -/
  phase2        : BitVec 4
  /-- `start_line` (R32). -/
  startLine     : Byte
  /-- `x_offset` (R33). -/
  xOffset       : Int
  /-- `active_column` (R34). -/
  activeColumn  : Column
  /-- `active_page` (R35). -/
  activePage    : Page
  /-- `ctrl_pending` (R37). -/
  ctrlPending   : Bool
  /-- `continuous` (R37). -/
  continuous    : Bool
  /-- `command_mode` (R37). -/
  commandMode   : Bool
  /-- `cmd_buf[0..7]` (R38). -/
  cmdBuf        : Vector Byte 8
  /-- `cmd_index` (R39), held by its legal range (R40, log 22). -/
  cmdIndex      : Fin 8
  /-- `cmd_expected` (R40), held by its legal range (log 22). -/
  cmdExpected   : Fin 9
  /-- `redraw_pending` (R43): also "exactly one timer callback is outstanding". -/
  redrawPending : Bool
  /-- Pixel memory (R50). -/
  pixmem        : Memory
  /-- The pixel sink's frame (R44). -/
  frame         : Frame
  /-- The parameters of R5; nothing writes them. -/
  params        : Params
  /-- The events the host still delivers, the next one first (R10, R13; log 1). The model's own field. -/
  inbox         : List Event
  /-- What the core has answered and asked for, oldest first (log 20). The model's own field. -/
  outbox        : List Output
deriving DecidableEq, Repr

/-- The state after construction (R45, R270), for any parameters, `X_OFFSET`, `PIXMEM_INIT` and `FRAME_INIT`. No render
is requested and no timer armed (R270). -/
def State.constructed (p : Params) (xOffset : Int) (pixmemInit : Memory) (frameInit : Frame) : State where
  contrast      := 0x7F
  invert        := false
  reverseRows   := false
  segmentRemap  := false
  displayOn     := false
  memoryMode    := .page
  clockDivider  := 1
  multiplex     := 63
  phase1        := 2
  phase2        := 2
  startLine     := 0
  xOffset       := xOffset
  activeColumn  := 0
  activePage    := 0
  ctrlPending   := false
  continuous    := false
  commandMode   := false
  cmdBuf        := Vector.replicate 8 0
  cmdIndex      := 0
  cmdExpected   := 1
  redrawPending := false
  pixmem        := pixmemInit
  frame         := frameInit
  params        := p
  inbox         := []
  outbox        := []

/-- Construction with the frame dimensions the host reports (R273): only 128x128 is built (R6, D1). -/
def State.construct (w h : Nat) (p : Params) (xOffset : Int) (pixmemInit : Memory) (frameInit : Frame) :
    Host.Outcome State Fault Refusal :=
  if w = W ∧ h = H then .next (State.constructed p xOffset pixmemInit frameInit) else .refused (.geometry w h)

/-- The machine right after reset, which is construction, the only reset (R270, R271): the parameters of R5, free values
for the OPEN ones (logs 10 to 12 and 14), pixel memory zero (log 13). -/
def State.reset : State :=
  State.constructed Params.sh1107 Config.xOffset [] (Frame.build Config.frameInit)

end Sys2Proof.Machine
end

