-- ==== Sys2Proof/Machine/Ops.lean ====
section
/-! DEFINITION. The shared operations: pixel memory (R50 to R54), outputs, the render request (R220), the end of a
forwarded byte (R104). There is no exception to take and none to return from (R250, R256, R257), so there is no
operation for either. -/

namespace Sys2Proof.Machine

/-- The outcome of a part of a step. -/
abbrev Result := Host.Outcome State Fault Refusal

/-- Go on from a next state; a stop stays a stop. -/
def andThen (r : Result) (k : State → Result) : Result :=
  match r with
  | .next s => k s
  | .fault f => .fault f
  | .refused x => .refused x

/-- The byte a memory lists at an index. -/
def Memory.read : Memory → Nat → Byte
  | [], _ => Memory.unlisted
  | (a, v) :: m, k => if a = k then v else Memory.read m k

/-- Put a byte at an index, keeping the canonical form. -/
def Memory.write : Memory → Nat → Byte → Memory
  | [], k, v => if v = Memory.unlisted then [] else [(k, v)]
  | (a, w) :: m, k, v =>
    if k < a then (if v = Memory.unlisted then (a, w) :: m else (k, v) :: (a, w) :: m)
    else if k = a then (if v = Memory.unlisted then m else (k, v) :: m)
    else (a, w) :: Memory.write m k v

/-- The index of the byte of a page and a column, `page * 128 + column` (R51). -/
def pixAddr (page : Page) (col : Column) : PixAddr := page ++ col

/-- `MemRead(addr, 1)` (R53). -/
def State.memRead (s : State) (a : PixAddr) : Byte := Memory.read s.pixmem a.toNat

/-- `MemWrite(addr, 1, v)`: all 8 bits are replaced at once (R52). -/
def State.memWrite (s : State) (a : PixAddr) (v : Byte) : State :=
  { s with pixmem := Memory.write s.pixmem a.toNat v }

/-- The pixel of a memory row and column: bit `row mod 8` of the byte of page `row / 8` (R54). -/
def State.pixel (s : State) (row : Nat) (col : Nat) : Bool :=
  (s.memRead (BitVec.ofNat 11 (row / 8 * W + col))).getLsbD (row % 8)

/-- The core answers its host or asks something of it (log 20). -/
def State.emit (s : State) (o : Output) : State := { s with outbox := s.outbox ++ [o] }

/-- `RequestRender()`: arms the one-shot timer only when no render is pending (R220, R221). -/
def State.requestRender (s : State) : State :=
  if s.redrawPending then s
  else { s with redrawPending := true }.emit (.armTimer s.params.renderDelay)

/-- `EndOfForwardedByte()`: in single-shot mode the next byte is a control byte again (R104). -/
def State.endOfForwardedByte (s : State) : State :=
  if s.continuous then s else { s with ctrlPending := true }

/-- The kind of the next byte written (R70): the receiver's state alone decides it. -/
def State.byteClass (s : State) : ByteClass :=
  if s.ctrlPending then .control else if s.commandMode then .command else .data

/-- The four byte lanes of a cell in the order the sink stores them (R229, D10). -/
def sinkLanes (o : SinkByteOrder) : List Nat :=
  let l0 : List Nat := [0, 1, 2, 3]
  let l1 := l0.eraseIdx o.first
  let l2 := l1.eraseIdx o.second
  let l3 := l2.eraseIdx o.third
  [l0.getD o.first 0, l1.getD o.second 0, l2.getD o.third 0, l3.getD 0 0]

/-- The byte offset of the cell `(x, y)` in the sink (R229). -/
def sinkOffset (x y : Nat) : Nat := (y * W + x) * 4

/-- Frame cell number `k`; the frame has no cell past its last, where this answers 0 (the caller keeps `k < 16384`). -/
def State.cell (s : State) (k : Nat) : Cell32 := s.frame[k]?.getD 0

/-- Byte lane `j` of a 32-bit value, lane 0 the least significant. -/
def byteLane (v : Cell32) (j : Nat) : Byte := v.extractLsb' (8 * j) 8

/-- The byte at an offset of the pixel sink, below 65536 (R229): the cell's byte that `SINK_BYTE_ORDER` puts there. -/
def State.sinkByte (s : State) (off : Nat) : Byte :=
  byteLane (s.cell (off / 4)) ((sinkLanes s.params.sinkByteOrder).getD (off % 4) 0)

end Sys2Proof.Machine
end

