-- ==== Sys2Proof/Machine/Operands.lean ====
section
/-! DEFINITION. Operand assembly (R78) and the cursor arithmetic of the commands and of the data writer. Every field is
a mask and a shift; no operand is sign-extended or scaled (R78). -/

namespace Sys2Proof.Machine

/-- SETCOLLO: `(active_column & 0x70) | (op & 0x0F)` (R166). -/
def columnLow (c : Column) (n : BitVec 4) : Column := (c &&& 0x70) ||| n.zeroExtend 7

/-- SETCOLHI: `(active_column & 0x0F) | ((op & 0x07) << 4)` (R167). -/
def columnHigh (c : Column) (n : BitVec 3) : Column := (c &&& 0x0F) ||| (n.zeroExtend 7 <<< 4)

/-- SETCLKDIV: `1 + (p & 0x0F)` (R150). -/
def clockOf (p : Byte) : Byte := 1 + (p &&& 0x0F)

/-- SETPRECHARGE: `p & 0x0F` (R151). -/
def phase1Of (p : Byte) : BitVec 4 := (p &&& 0x0F).truncate 4

/-- SETPRECHARGE: `(p >> 4) & 0x0F` (R151). -/
def phase2Of (p : Byte) : BitVec 4 := ((p >>> 4) &&& 0x0F).truncate 4

/-- The column a data byte is stored at: mirrored when `segment_remap` is set (R201). -/
def effectiveColumn (remap : Bool) (c : Column) : Column :=
  if remap then BitVec.ofNat 7 (W - 1 - c.toNat) else c

/-- The column after this one, wrapping to 0 at `W` (R203). -/
def nextColumn (c : Column) : Column := if c.toNat + 1 = W then 0 else BitVec.ofNat 7 (c.toNat + 1)

/-- The index a data byte is stored at, from the cursors before the advance (R201, R202). -/
def State.targetAddr (s : State) : PixAddr :=
  pixAddr s.activePage (effectiveColumn s.segmentRemap s.activeColumn)

/-- The page-mode advance (R203): the page never advances. -/
def State.advancePage (s : State) : State := { s with activeColumn := nextColumn s.activeColumn }

/-- The vertical-mode advance (R204): the page, and the column when the page wraps from 15. -/
def State.advanceVertical (s : State) : State :=
  if s.activePage = 15 then { s with activePage := 0, activeColumn := nextColumn s.activeColumn }
  else { s with activePage := s.activePage + 1 }

/-- The advance after a data byte: `memory_mode` selects it; anything that is not PAGE advances vertically (R28, R203). -/
def State.advance (s : State) : State :=
  if s.memoryMode = .page then s.advancePage else s.advanceVertical

end Sys2Proof.Machine
end

