-- ==== Sys2Proof/Machine/Flags.lean ====
section
/-! DEFINITION. The interpreter's two local flags (R42) and the end of every command (R140, R141). The core has no
arithmetic flags; its parser flags are written by the receiver (R37). -/

namespace Sys2Proof.Machine

/-- The redraw-needed flag of a command (R141). It is local to one command (R42); a control or data byte has none. -/
def redrawNeeded (p : Params) : Instr → Bool
  | .setContrast _ | .displayOff | .displayOn | .normal | .invert | .pageMode | .vertMode
  | .setClkDiv _ | .setPrecharge _ | .comScanInc | .comScanDec | .segRemap0 | .segRemap1
  | .setStartLine _ | .setPage _ => true
  | .setColLo _ | .setColHi _ | .setDispOffset _ | .setMux _ | .setVcomDesel _ | .setComPins _
  | .allOnResume | .allOnForced => false
  | .nop => p.redrawOnNop
  | .unrecognized _ => p.redrawOnUnknown
  | .ctrl _ _ _ | .data _ => false

/-- `force`: only DISPLAYOFF and DISPLAYON always request a render (R141, R145). -/
def renderForced : Instr → Bool
  | .displayOff | .displayOn => true
  | .ctrl _ _ _ | .data _ | .setColLo _ | .setColHi _ | .pageMode | .vertMode | .setContrast _
  | .segRemap0 | .segRemap1 | .allOnResume | .allOnForced | .normal | .invert | .setMux _
  | .setPage _ | .comScanInc | .comScanDec | .setDispOffset _ | .setClkDiv _ | .setPrecharge _
  | .setComPins _ | .setVcomDesel _ | .setStartLine _ | .nop | .unrecognized _ => false

/-- The last two lines of `Interpret` (R140), on the state after the command's own writes (D19):
`if redraw and S.display_on then RequestRender(); if force then RequestRender()`. -/
def State.finishCommand (i : Instr) (s : State) : State :=
  let s1 := if redrawNeeded s.params i && s.displayOn then s.requestRender else s
  if renderForced i then s1.requestRender else s1

end Sys2Proof.Machine
end

