-- ==== Sys2Proof/Machine/Cursor.lean ====
section
/-! DEFINITION. The family of the cursor commands (42_commands.md R165 to R169). -/

namespace Sys2Proof.Machine

/-- SETCOLLO (R166). -/
def execSetColLo (n : BitVec 4) (s : State) : Result :=
  .next (State.finishCommand (.setColLo n) { s with activeColumn := columnLow s.activeColumn n })

/-- SETCOLHI (R167). -/
def execSetColHi (n : BitVec 3) (s : State) : Result :=
  .next (State.finishCommand (.setColHi n) { s with activeColumn := columnHigh s.activeColumn n })

/-- SETPAGE (R168); byte 0xC0 under `C0_CLASS = PageSelect` is SETPAGE with page 0 (R169). -/
def execSetPage (n : BitVec 4) (s : State) : Result :=
  .next (State.finishCommand (.setPage n) { s with activePage := n })

end Sys2Proof.Machine
end

