-- ==== Sys2Proof/Machine/DataWriter.lean ====
section
/-! DEFINITION. The family of the data byte (43_data_writer.md). -/

namespace Sys2Proof.Machine

/-- DATA, `DataWrite(b)` (R200): store at the target index, advance the cursor, and request a render whatever
`display_on` is (R205). -/
def execData (d : Byte) (s : State) : Result :=
  .next ((s.memWrite s.targetAddr d).advance.requestRender)

end Sys2Proof.Machine
end

