-- ==== Sys2Proof/Machine/Display.lean ====
section
/-! DEFINITION. The family of the display configuration commands (42_commands.md R142 to R147). -/

namespace Sys2Proof.Machine

/-- SETCONTRAST (R142). -/
def execSetContrast (p : Byte) (s : State) : Result :=
  .next (State.finishCommand (.setContrast p) { s with contrast := p })

/-- DISPLAYOFF (R143). -/
def execDisplayOff (s : State) : Result :=
  .next (State.finishCommand .displayOff { s with displayOn := false })

/-- DISPLAYON (R144). -/
def execDisplayOn (s : State) : Result :=
  .next (State.finishCommand .displayOn { s with displayOn := true })

/-- NORMAL (R146). -/
def execNormal (s : State) : Result :=
  .next (State.finishCommand .normal { s with invert := false })

/-- INVERT (R147). -/
def execInvert (s : State) : Result :=
  .next (State.finishCommand .invert { s with invert := true })

end Sys2Proof.Machine
end

