-- ==== Sys2Proof/Machine/Modes.lean ====
section
/-! DEFINITION. The family of the addressing-mode and timing commands (42_commands.md R148 to R151). -/

namespace Sys2Proof.Machine

/-- PAGEMODE (R148). -/
def execPageMode (s : State) : Result :=
  .next (State.finishCommand .pageMode { s with memoryMode := .page })

/-- VERTMODE (R149). -/
def execVertMode (s : State) : Result :=
  .next (State.finishCommand .vertMode { s with memoryMode := .vertical })

/-- SETCLKDIV (R150). -/
def execSetClkDiv (p : Byte) (s : State) : Result :=
  .next (State.finishCommand (.setClkDiv p) { s with clockDivider := clockOf p })

/-- SETPRECHARGE (R151). -/
def execSetPrecharge (p : Byte) (s : State) : Result :=
  .next (State.finishCommand (.setPrecharge p) { s with phase1 := phase1Of p, phase2 := phase2Of p })

end Sys2Proof.Machine
end

