-- ==== Sys2Proof/Machine/NoEffect.lean ====
section
/-! DEFINITION. The family of the commands that write no register: the set the source calls "not implemented", which is
"accepted, buffered, no state change" (42_commands.md R157 to R163), NOP (R164) and the unrecognized opcodes (R170). -/

namespace Sys2Proof.Machine

/-- SETDISPOFFSET (R158): the parameter is ignored. -/
def execSetDispOffset (p : Byte) (s : State) : Result :=
  .next (State.finishCommand (.setDispOffset p) s)

/-- SETMUX (R159): the parameter is ignored and `multiplex` stays. -/
def execSetMux (p : Byte) (s : State) : Result :=
  .next (State.finishCommand (.setMux p) s)

/-- SETVCOMDESEL (R160): the parameter is ignored. -/
def execSetVcomDesel (p : Byte) (s : State) : Result :=
  .next (State.finishCommand (.setVcomDesel p) s)

/-- SETCOMPINS (R161): the parameter is ignored. -/
def execSetComPins (p : Byte) (s : State) : Result :=
  .next (State.finishCommand (.setComPins p) s)

/-- ALLONRESUME (R162). -/
def execAllOnResume (s : State) : Result :=
  .next (State.finishCommand .allOnResume s)

/-- ALLONFORCED (R163): the frame is not forced lit. -/
def execAllOnForced (s : State) : Result :=
  .next (State.finishCommand .allOnForced s)

/-- NOP (R164): no register changes; `REDRAW_ON_NOP` decides its redraw flag. -/
def execNop (s : State) : Result :=
  .next (State.finishCommand .nop s)

/-- An unrecognized opcode (R170, R251): `Diag(op)`, no register changes; `REDRAW_ON_UNKNOWN` decides its redraw flag. -/
def execUnrecognized (op : Byte) (s : State) : Result :=
  .next (State.finishCommand (.unrecognized op) (s.emit (.diag op)))

end Sys2Proof.Machine
end

