-- ==== Sys2Proof/Machine/Receiver.lean ====
section
/-! DEFINITION. The family of the control byte (40_receiver.md R103). -/

namespace Sys2Proof.Machine

/-- CTRL, `ControlByte(b)` (R103): bit 6 clear is command mode, bit 7 clear is continuous; the reserved bits are
ignored (D16, log 17). -/
def execCtrl (co dc : Bool) (_reserved : BitVec 6) (s : State) : Result :=
  .next { s with commandMode := !dc, continuous := !co, ctrlPending := false }

end Sys2Proof.Machine
end

