-- ==== Sys2Proof/Machine/Scan.lean ====
section
/-! DEFINITION. The family of the scan-direction, remap and start-line commands (42_commands.md R152 to R156). -/

namespace Sys2Proof.Machine

/-- COMSCANINC (R152). -/
def execComScanInc (s : State) : Result :=
  .next (State.finishCommand .comScanInc { s with reverseRows := false })

/-- COMSCANDEC (R153). -/
def execComScanDec (s : State) : Result :=
  .next (State.finishCommand .comScanDec { s with reverseRows := true })

/-- SEGREMAP0 (R154). -/
def execSegRemap0 (s : State) : Result :=
  .next (State.finishCommand .segRemap0 { s with segmentRemap := false })

/-- SEGREMAP1 (R155). -/
def execSegRemap1 (s : State) : Result :=
  .next (State.finishCommand .segRemap1 { s with segmentRemap := true })

/-- SETSTARTLINE (R156). -/
def execSetStartLine (p : Byte) (s : State) : Result :=
  .next (State.finishCommand (.setStartLine p) { s with startLine := p })

end Sys2Proof.Machine
end

