-- ==== Sys2Proof/Machine/Dispatch.lean ====
section
/-! DEFINITION. The meaning of each instruction: one arm per constructor. -/

namespace Sys2Proof.Machine

def exec (i : Instr) (s : State) : Host.Outcome State Fault Refusal :=
  match i with
  | .ctrl co dc reserved => Sys2Proof.Machine.execCtrl co dc reserved s
  | .data d => Sys2Proof.Machine.execData d s
  | .setColLo n => Sys2Proof.Machine.execSetColLo n s
  | .setColHi n => Sys2Proof.Machine.execSetColHi n s
  | .pageMode => Sys2Proof.Machine.execPageMode s
  | .vertMode => Sys2Proof.Machine.execVertMode s
  | .setContrast p => Sys2Proof.Machine.execSetContrast p s
  | .segRemap0 => Sys2Proof.Machine.execSegRemap0 s
  | .segRemap1 => Sys2Proof.Machine.execSegRemap1 s
  | .allOnResume => Sys2Proof.Machine.execAllOnResume s
  | .allOnForced => Sys2Proof.Machine.execAllOnForced s
  | .normal => Sys2Proof.Machine.execNormal s
  | .invert => Sys2Proof.Machine.execInvert s
  | .setMux p => Sys2Proof.Machine.execSetMux p s
  | .displayOff => Sys2Proof.Machine.execDisplayOff s
  | .displayOn => Sys2Proof.Machine.execDisplayOn s
  | .setPage n => Sys2Proof.Machine.execSetPage n s
  | .comScanInc => Sys2Proof.Machine.execComScanInc s
  | .comScanDec => Sys2Proof.Machine.execComScanDec s
  | .setDispOffset p => Sys2Proof.Machine.execSetDispOffset p s
  | .setClkDiv p => Sys2Proof.Machine.execSetClkDiv p s
  | .setPrecharge p => Sys2Proof.Machine.execSetPrecharge p s
  | .setComPins p => Sys2Proof.Machine.execSetComPins p s
  | .setVcomDesel p => Sys2Proof.Machine.execSetVcomDesel p s
  | .setStartLine p => Sys2Proof.Machine.execSetStartLine p s
  | .nop => Sys2Proof.Machine.execNop s
  | .unrecognized op => Sys2Proof.Machine.execUnrecognized op s

end Sys2Proof.Machine
end

