-- ==== Sys2Proof/Machine/Renderer.lean ====
section
/-! DEFINITION. The renderer (44_renderer.md): the transform from pixel memory to the frame, and `TimerFire`. -/

namespace Sys2Proof.Machine

/-- Step 1 (R225): `scroll_y = y + start_line`, not reduced. -/
def State.scrollY (s : State) (y : Nat) : Nat := y + s.startLine.toNat

/-- Step 2 (R226): mirror the rows when `reverse_rows` is set; the value may be negative. -/
def State.rowsY (s : State) (y : Nat) : Int :=
  if s.reverseRows then (H : Int) - 1 - s.scrollY y else s.scrollY y

/-- Step 2 (R226): the modulus is `W`, not `H`. The remainder is Euclidean (R8, D8; log 9): `%` on `Int` is. -/
def State.virtualY (s : State) (y : Nat) : Nat := (s.rowsY y % (W : Int)).toNat

/-- Step 3 (R226): the column of pixel memory shown at `x`. -/
def State.virtualX (s : State) (x : Nat) : Nat := (((x : Int) + s.xOffset) % (W : Int)).toNat

/-- Steps 1 to 6 for one output coordinate (R223 to R228): the value written for `(x, y)`. -/
def State.renderPixel (s : State) (x y : Nat) : Cell32 :=
  let bit := s.pixel (s.virtualY y) (s.virtualX x)
  let lit := bit != s.invert
  if lit && s.displayOn then s.params.pixelLit else s.params.pixelDark

/-- `RenderPass()` (R223): every cell `y * W + x` of the frame is written once, in the order of R223's two loops; the
pass reads nothing it writes, so it is one function of the state (R224, D24; log 26). -/
def State.renderPass (s : State) : State :=
  { s with frame := Frame.build fun k => s.renderPixel (k % W) (k / W) }

/-- `TimerFire` while a render is pending (R222): render, then clear `redraw_pending`. -/
def State.fireTimer (s : State) : State := { s.renderPass with redrawPending := false }

end Sys2Proof.Machine
end

