-- ==== Sys2Proof/Machine/Events.lean ====
section
/-! DEFINITION. The events of the core (R10): the receiver's three bus events (40_receiver.md), the command assembler
(41_assembler.md) and the timer's event (R222). -/

namespace Sys2Proof.Machine

/-- `Connect` (R100): `ctrl_pending` only. -/
def onConnect (s : State) : Result := .next { s with ctrlPending := true }

/-- `Read` (R105): returns 0xFF and changes nothing (D14, log 16). -/
def onRead (s : State) : Result := .next (s.emit (.readByte 0xFF))

/-- The length of the command in progress once byte `b` has arrived (R120): `1 + ARITY(b)` when `b` is its opcode. -/
def State.expectedWith (s : State) (b : Byte) : Fin 9 :=
  if s.cmdIndex = 0 then (s.params.arity b).succ else s.cmdExpected

/-- The append (R120, R121), less the index, which `assemble` sets. -/
def State.append (s : State) (b : Byte) : State :=
  { s with cmdExpected := s.expectedWith b, cmdBuf := s.cmdBuf.set s.cmdIndex.val b s.cmdIndex.isLt }

/-- The command in the buffer (R140): opcode `cmd_buf[0]`, parameter `cmd_buf[1]`, which only a class that takes a
parameter reads. -/
def State.buffered (s : State) : Instr := instrOf s.params s.cmdBuf[0] s.cmdBuf[1]

/-- `Assemble(b)` (R126): append; when the command is complete, interpret it and reset the index (R122); otherwise there
is no effect beyond buffering (R123). -/
def assemble (b : Byte) (s : State) : Result :=
  let s1 := s.append b
  if h : s.cmdIndex.val + 1 < s1.cmdExpected.val then
    .next { s1 with cmdIndex := ⟨s.cmdIndex.val + 1, Nat.lt_of_lt_of_le h (Nat.le_of_lt_succ s1.cmdExpected.isLt)⟩ }
  else
    andThen (exec s1.buffered s1) fun t => .next { t with cmdIndex := 0 }

/-- `Write(b)` (R102): the state before the event decides the branch; every write is acknowledged (R101). -/
def onWrite (b : Byte) (s : State) : Result :=
  andThen
    (match s.byteClass with
      | .control => exec (ctrlOf b) s
      | .command => andThen (assemble b s) fun t => .next t.endOfForwardedByte
      | .data => andThen (exec (.data b) s) fun t => .next t.endOfForwardedByte)
    fun t => .next (t.emit (.ack true))

/-- `TimerFire` (R222): enabled only while a render is pending; there is no such step otherwise (D20, log 3). -/
def onTimerFire (s : State) : Result :=
  if s.redrawPending then .next s.fireTimer else .refused .timerNotArmed

/-- One event runs to completion (R10). -/
def onEvent (e : Event) (s : State) : Result :=
  match e with
  | .connect => onConnect s
  | .write b => onWrite b s
  | .read => onRead s
  | .timerFire => onTimerFire s

/-- The host has no further event listed: the timer agent's callback, which "eventually comes" (R222, D2), is all that
can still happen; with none outstanding nothing happens, for nothing runs inside the core between events (R10; log 2). -/
def onQuiet (s : State) : Result :=
  if s.redrawPending then .next s.fireTimer else .next s

/-- Store the opcode and the parameters but the last of a command in `cmd_buf[0..n-1]`. -/
def preload (bytes : List Byte) (buf : Vector Byte 8) : Nat → Vector Byte 8
  | 0 => buf
  | n + 1 => (preload bytes buf n).setIfInBounds n (bytes.getD n 0)

/-- The state in which the next event is the last byte of the command `bytes` (R72): its earlier bytes stand in the
buffer, the receiver forwards command bytes, and the last byte is the first event of the inbox. -/
def State.withCommand (s : State) (bytes : List Byte) : State :=
  let n := s.params.arity (bytes.headD 0)
  { s with
    ctrlPending := false
    commandMode := true
    cmdBuf      := preload bytes s.cmdBuf n.val
    cmdIndex    := n
    cmdExpected := n.succ
    inbox       := .write (bytes.getD n.val 0) :: s.inbox }

/-- The state in which the next event is the control byte `b` (R70). -/
def State.withControlByte (s : State) (b : Byte) : State :=
  { s with ctrlPending := true, inbox := .write b :: s.inbox }

/-- The state in which the next event is the data byte `b` (R70). -/
def State.withDataByte (s : State) (b : Byte) : State :=
  { s with ctrlPending := false, commandMode := false, inbox := .write b :: s.inbox }

end Sys2Proof.Machine
end

