-- ==== Sys2Proof/Machine/Step.lean ====
section
/-! DEFINITION. One step: the next event of the host's list runs to completion (R10, R13, R61). -/

namespace Sys2Proof.Machine

/-- One step (log 1, log 2): the first event of the inbox; with an empty inbox, what can still happen. -/
def step (s : State) : Host.Outcome State Fault Refusal :=
  match s.inbox with
  | [] => onQuiet s
  | e :: rest => onEvent e { s with inbox := rest }

/-- The state whose very next step runs the COMMAND whose bits are `w`, numbered as the opcode table numbers them (log
23). The core fetches nothing (R65): the command's last byte is the next event and its earlier bytes are in the buffer. -/
def State.withFetchWord (s : State) (nbits w : Nat) : State := s.withCommand (tableBytes nbits w)

end Sys2Proof.Machine
end

