-- ==== Sys2Proof/Machine/Streams.lean ====
section
/-! DEFINITION. The byte-stream notation of R82 and the pseudo-instructions of R83, as lists of events. They have no
meaning beyond the events they stand for (D18). -/

namespace Sys2Proof.Machine

/-- `CTRL.CMD.CONT` (R82). -/
def ctrlCmdCont : Event := .write 0x00

/-- `CTRL.CMD.ONE` (R82). -/
def ctrlCmdOne : Event := .write 0x80

/-- `CTRL.DATA.CONT` (R82). -/
def ctrlDataCont : Event := .write 0x40

/-- `CTRL.DATA.ONE` (R82). -/
def ctrlDataOne : Event := .write 0xC0

/-- The `Write` events of a list of bytes. -/
def writes (bs : List Byte) : List Event := bs.map .write

/-- The `Write` events a mnemonic stands for, without the control bytes it needs (R82). -/
def instrWrites (p : Params) (i : Instr) : List Event := writes (encode p i)

/-- `SETCOL #c` (R83): `SETCOLLO #(c & 0x0F)` followed by `SETCOLHI #(c >> 4)`. -/
def setCol (c : Column) : List Instr := [.setColLo (c.extractLsb' 0 4), .setColHi (c.extractLsb' 4 3)]

/-- `GOTO #p, #c` (R83): `SETPAGE #p` followed by `SETCOL #c`. -/
def goto (pg : Page) (c : Column) : List Instr := .setPage pg :: setCol c

/-- `TXCMD b1 .. bn` (R83). -/
def txCmd (bs : List Byte) : List Event := .connect :: ctrlCmdCont :: writes bs

/-- `TXDATA d1 .. dn` (R83). -/
def txData (ds : List Byte) : List Event := .connect :: ctrlDataCont :: writes ds

end Sys2Proof.Machine
end

