-- ==== Sys2Proof/Safety.lean ====
section
/-! DEFINITION. The terms claims use: the invariant of every reachable state, the freshness of the frame (R231), the
closed forms of R220 and R230, and relations between states. -/

namespace Sys2Proof.Machine

/-- `k` steps, stopping at the first stop. -/
def run : Nat → State → Result
  | 0, s => .next s
  | k + 1, s => andThen (step s) (run k)

/-- The relations between fields that every event keeps: the canonical form of pixel memory; "`command_index <
expected_length`" and the length of the command in progress (R40); the legal values of `clock_divider` and `multiplex`
(R22, R29, R30). The other legal values of R22 are held by the fields' types. -/
structure State.Inv (s : State) : Prop where
  memory   : Memory.wf s.pixmem = true
  parser   : s.cmdIndex.val < s.cmdExpected.val
  expected : s.cmdIndex ≠ 0 → s.cmdExpected = (s.params.arity s.cmdBuf[0]).succ
  clockLow : 1 ≤ s.clockDivider.toNat
  clockTop : s.clockDivider.toNat ≤ 16
  mux      : s.multiplex = 63

/-- The frame function `F(S)(x, y)` in the closed form of R230; `%` is the Euclidean remainder (D8, log 9). -/
def State.frameFunction (s : State) (x y : Nat) : Cell32 :=
  let r : Int := if s.reverseRows then 127 - (y : Int) - s.startLine.toNat else (y : Int) + s.startLine.toNat
  let vy := (r % 128).toNat
  let col := (((x : Int) + s.xOffset) % 128).toNat
  let bit := (s.memRead (BitVec.ofNat 11 (vy / 8 * 128 + col)) >>> (vy % 8)) &&& 1
  if s.displayOn = true ∧ bit ^^^ (if s.invert then 1 else 0) = 1 then s.params.pixelLit else s.params.pixelDark

/-- The frame shows the current state: `frame[y * 128 + x] = F(S)(x, y)` for every coordinate (R230). -/
def State.shows (s : State) : Prop :=
  ∀ x y : Nat, x < 128 → y < 128 → s.cell (y * 128 + x) = s.frameFunction x y

/-- R231: with no render pending, the frame equals `F(S)` of the current state. -/
def State.FrameFresh (s : State) : Prop := s.redrawPending = false → s.shows

/-- What a render request made or not made leaves (R220), in closed form: a request sets `redraw_pending`, and arms the
timer exactly when no render was pending. -/
def State.armed (s : State) (request : Bool) : State :=
  { s with
    redrawPending := s.redrawPending || request
    outbox := if request && !s.redrawPending then s.outbox ++ [.armTimer s.params.renderDelay] else s.outbox }

/-- The configuration and addressing registers of R22 are the same. -/
def State.sameRegisters (s t : State) : Prop :=
  t.contrast = s.contrast ∧ t.invert = s.invert ∧ t.reverseRows = s.reverseRows ∧
  t.segmentRemap = s.segmentRemap ∧ t.displayOn = s.displayOn ∧ t.memoryMode = s.memoryMode ∧
  t.clockDivider = s.clockDivider ∧ t.multiplex = s.multiplex ∧ t.phase1 = s.phase1 ∧
  t.phase2 = s.phase2 ∧ t.startLine = s.startLine ∧ t.xOffset = s.xOffset ∧
  t.activeColumn = s.activeColumn ∧ t.activePage = s.activePage

/-- Two states that agree on everything but the registers no rule reads: `contrast`, `clock_divider`, `multiplex`,
`phase1` and `phase2` (R23, R29, R30, R31). -/
def State.sameButStored (s t : State) : Prop :=
  t.invert = s.invert ∧ t.reverseRows = s.reverseRows ∧ t.segmentRemap = s.segmentRemap ∧
  t.displayOn = s.displayOn ∧ t.memoryMode = s.memoryMode ∧ t.startLine = s.startLine ∧
  t.xOffset = s.xOffset ∧ t.activeColumn = s.activeColumn ∧ t.activePage = s.activePage ∧
  t.ctrlPending = s.ctrlPending ∧ t.continuous = s.continuous ∧ t.commandMode = s.commandMode ∧
  t.cmdBuf = s.cmdBuf ∧ t.cmdIndex = s.cmdIndex ∧ t.cmdExpected = s.cmdExpected ∧
  t.redrawPending = s.redrawPending ∧ t.pixmem = s.pixmem ∧ t.frame = s.frame ∧ t.params = s.params ∧
  t.inbox = s.inbox ∧ t.outbox = s.outbox

/-- The bytes of the instruction that byte `b` ends: for a command, the buffered bytes and `b` (R72, R121). -/
def State.pendingBytes (s : State) (b : Byte) : List Byte :=
  match s.byteClass with
  | .command => s.cmdBuf.toList.take s.cmdIndex.val ++ [b]
  | .control | .data => [b]

/-- The receiver forwards command bytes without further control bytes, and no command is in progress. -/
def State.commandReady (s : State) : Prop :=
  s.ctrlPending = false ∧ s.commandMode = true ∧ s.continuous = true ∧ s.cmdIndex = 0

/-- The receiver forwards data bytes without further control bytes. -/
def State.dataReady (s : State) : Prop :=
  s.ctrlPending = false ∧ s.commandMode = false ∧ s.continuous = true

/-- A bus event (R13, agent 1). -/
def Event.isBus : Event → Bool
  | .connect | .write _ | .read => true
  | .timerFire => false

/-- The commands the source calls "not implemented" (R157). -/
def notImplemented : Instr → Bool
  | .setDispOffset _ | .setMux _ | .setVcomDesel _ | .setComPins _ | .allOnResume | .allOnForced => true
  | .ctrl _ _ _ | .data _ | .setColLo _ | .setColHi _ | .pageMode | .vertMode | .setContrast _ | .segRemap0
  | .segRemap1 | .normal | .invert | .displayOff | .displayOn | .setPage _ | .comScanInc | .comScanDec
  | .setClkDiv _ | .setPrecharge _ | .setStartLine _ | .nop | .unrecognized _ => false

end Sys2Proof.Machine
end

