-- ==== Sys2Proof/Certificates/Slice0/Obligations.lean ====
section
/-! DEFINITION. The statements for the provers. "The model's choice" in a docstring marks what rests on a row of the
assumption log; a rule of spec/ marked [derived] or [decision] there is cited as derived. -/

open Sys2Proof Sys2Proof.Machine Host

/-! ## Reset and construction -/

/-- R45, R270: what construction leaves, for any parameters, `X_OFFSET`, `PIXMEM_INIT` and `FRAME_INIT`. The values of
`invert`, `reverse_rows`, `segment_remap`, `start_line`, the parser and `redraw_pending` are the spec's decision D12 (log
15); the empty queues are the model's own (logs 1 and 20). -/
def Obligations.ConstructionValues : Prop :=
  ∀ (p : Params) (x : Int) (m : Memory) (f : Frame), ∃ t, State.construct 128 128 p x m f = .next t ∧
    t.contrast = 0x7F ∧ t.clockDivider = 1 ∧ t.multiplex = 63 ∧ t.phase1 = 2 ∧ t.phase2 = 2 ∧
    t.memoryMode = .page ∧ t.activeColumn = 0 ∧ t.activePage = 0 ∧ t.displayOn = false ∧ t.xOffset = x ∧
    t.invert = false ∧ t.reverseRows = false ∧ t.segmentRemap = false ∧ t.startLine = 0 ∧
    t.ctrlPending = false ∧ t.continuous = false ∧ t.commandMode = false ∧ t.cmdIndex = 0 ∧ t.cmdExpected = 1 ∧
    (∀ k (h : k < 8), t.cmdBuf[k] = 0) ∧ t.redrawPending = false ∧ t.pixmem = m ∧ t.frame = f ∧ t.params = p ∧
    t.inbox = [] ∧ t.outbox = []

/-- R6, D1 (log 19): only 128 by 128 is built. -/
def Obligations.ConstructionRefusesOtherSizes : Prop :=
  ∀ (w h : Nat) (p : Params) (x : Int) (m : Memory) (f : Frame), w ≠ 128 ∨ h ≠ 128 →
    State.construct w h p x m f = .refused (.geometry w h)

/-- `State.reset` is a construction of a 128 by 128 device (R270). The values it gives the parameters are choices, none a
rule of the source: the opcode map (D3, log 5), the arity table (D4, log 6), `C0_CLASS` (D5, log 7), the two redraw
parameters (D7, log 8), two distinct pixel values (D10, log 11), the render delay (D13, log 21), and zero pixel memory
(D11, log 13). -/
def Obligations.ResetIsAConstruction : Prop :=
  ∃ (p : Params) (x : Int) (f : Frame), State.construct 128 128 p x [] f = .next State.reset ∧
    p.standardTables ∧ p.binary ∧ p.c0Class = .comScanInc ∧ p.redrawOnNop = true ∧ p.redrawOnUnknown = false ∧
    p.renderDelay = 16667 ∧ ∀ a : PixAddr, State.reset.memRead a = 0

/-! ## Events of the receiver -/

/-- R100: `Connect` writes `ctrl_pending` only. -/
def Obligations.ConnectWritesOnlyCtrlPending : Prop :=
  ∀ (s : State) (rest : List Event), s.inbox = .connect :: rest →
    step s = .next { s with inbox := rest, ctrlPending := true }

/-- R105: a `Read` answers 0xFF; that it changes nothing else is the spec's decision D14 (log 16). -/
def Obligations.ReadAnswersPlaceholder : Prop :=
  ∀ (s : State) (rest : List Event), s.inbox = .read :: rest →
    step s = .next { s with inbox := rest, outbox := s.outbox ++ [.readByte 0xFF] }

/-- R101: every `Write` is acknowledged with `true`, once, whatever the state and the byte. -/
def Obligations.EveryWriteAcknowledged : Prop :=
  ∀ (s : State) (b : Byte) (rest : List Event), s.inbox = .write b :: rest →
    ∃ (t : State) (out : List Output), step s = .next t ∧ t.outbox = s.outbox ++ out ++ [.ack true] ∧
      ∀ v, Output.ack v ∉ out

/-- R103, R71: a control byte's bits 6 and 7; that bits 5..0 are ignored is the spec's decision D16 (log 17). The
completion of CTRL. -/
def Obligations.ControlByteSetsModes : Prop :=
  (∀ (co dc : Bool) (r : BitVec 6) (s : State),
    exec (.ctrl co dc r) s = .next { s with commandMode := !dc, continuous := !co, ctrlPending := false }) ∧
  (∀ (s : State) (b : Byte) (rest : List Event), s.inbox = .write b :: rest → s.ctrlPending = true →
    step s = .next { s with
      inbox := rest
      commandMode := !b.getLsbD 6
      continuous := !b.getLsbD 7
      ctrlPending := false
      outbox := s.outbox ++ [.ack true] })

/-- R107: the receiver's mode after a `Write`, in its five rows. -/
def Obligations.ReceiverModeTable : Prop :=
  ∀ (s : State) (b : Byte) (rest : List Event), s.inbox = .write b :: rest → ∃ t, step s = .next t ∧
    (s.ctrlPending = true →
      t.ctrlPending = false ∧ t.commandMode = !b.getLsbD 6 ∧ t.continuous = !b.getLsbD 7) ∧
    (s.ctrlPending = false →
      t.ctrlPending = !s.continuous ∧ t.commandMode = s.commandMode ∧ t.continuous = s.continuous)

/-- R284: in single-shot mode a parameter sent without its own control byte is taken as a control byte: nothing but the
receiver's modes and the answers change. -/
def Obligations.SingleShotByteNeedsControl : Prop :=
  ∀ (s : State) (op b : Byte) (rest : List Event), s.inbox = .write op :: .write b :: rest →
    s.ctrlPending = false → s.commandMode = true → s.continuous = false →
    ∃ t u, step s = .next t ∧ t.ctrlPending = true ∧ step t = .next u ∧
      u = { t with
        inbox := rest
        ctrlPending := false
        commandMode := !b.getLsbD 6
        continuous := !b.getLsbD 7
        outbox := t.outbox ++ [.ack true] }

/-! ## The assembler -/

/-- R102, R126: a byte that ends a well-formed instruction runs exactly that instruction; around it stand the assembler's
index (R122), the end of a forwarded byte (R104) and the acknowledge (R101). -/
def Obligations.StepRunsDecodedInstruction : Prop :=
  ∀ (s : State) (b : Byte) (rest : List Event) (i : Instr), s.Inv → s.inbox = .write b :: rest →
    decode s.params s.byteClass (s.pendingBytes b) = .ok (i, []) →
    step s =
      match s.byteClass with
      | .control => andThen (exec i { s with inbox := rest }) fun t => .next (t.emit (.ack true))
      | .data =>
        andThen (exec i { s with inbox := rest }) fun t => .next (t.endOfForwardedByte.emit (.ack true))
      | .command =>
        andThen (exec i ({ s with inbox := rest }.append b)) fun t =>
          .next ({ t with cmdIndex := 0 }.endOfForwardedByte.emit (.ack true))

/-- R123: a command byte that does not complete its command has no effect beyond buffering. -/
def Obligations.IncompleteCommandOnlyBuffers : Prop :=
  ∀ (s : State) (b : Byte) (rest : List Event), s.inbox = .write b :: rest → s.byteClass = .command →
    s.cmdIndex.val + 1 < (s.expectedWith b).val → ∃ t, step s = .next t ∧
      t.cmdIndex.val = s.cmdIndex.val + 1 ∧ t.cmdExpected = s.expectedWith b ∧
      (∀ k (h : k < 8), t.cmdBuf[k] = if k = s.cmdIndex.val then b else s.cmdBuf[k]) ∧
      s.sameRegisters t ∧ t.pixmem = s.pixmem ∧ t.frame = s.frame ∧ t.redrawPending = s.redrawPending ∧
      t.commandMode = s.commandMode ∧ t.continuous = s.continuous ∧ t.ctrlPending = (!s.continuous) ∧
      t.params = s.params ∧ t.inbox = rest ∧ t.outbox = s.outbox ++ [.ack true]

/-- R124: nothing but a command byte touches the command in progress. -/
def Obligations.OnlyCommandBytesTouchTheCommand : Prop :=
  ∀ s t : State, step s = .next t →
    (∀ b rest, s.inbox = .write b :: rest → s.byteClass ≠ .command) →
    t.cmdIndex = s.cmdIndex ∧ t.cmdExpected = s.cmdExpected ∧ t.cmdBuf = s.cmdBuf

/-- R72, R122, R126: in continuous command mode, the bytes of a well-formed command, sent one after another from an idle
parser, run exactly that command on the state in which its bytes stand in the buffer, and leave the parser idle. -/
def Obligations.CommandBytesRunTheCommand : Prop :=
  ∀ (s : State) (i : Instr) (rest : List Event), wellFormed s.params i = true → i.byteClass = .command →
    s.commandReady → s.inbox = writes (encode s.params i) ++ rest →
    ∃ u t, exec i u = .next t ∧
      run (encode s.params i).length s = .next ({ t with cmdIndex := 0 }.emit (.ack true)) ∧
      u.cmdBuf.toList.take (encode s.params i).length = encode s.params i ∧
      u = { s with
        inbox := rest
        cmdBuf := u.cmdBuf
        cmdIndex := u.cmdIndex
        cmdExpected := u.cmdExpected
        outbox := s.outbox ++ List.replicate ((encode s.params i).length - 1) (.ack true) }

/-- R286: with arities of at most 1, one NOP byte in command mode leaves no command in progress, whatever the
parser held. -/
def Obligations.NopByteResynchronises : Prop :=
  ∀ (s : State) (rest : List Event), s.Inv → s.params.standardTables → s.inbox = .write 0xE3 :: rest →
    s.ctrlPending = false → s.commandMode = true → ∃ t, step s = .next t ∧ t.cmdIndex = 0

/-! ## Encoding -/

/-- Words written out from R71, R73 and R74 (opcode values: the spec's decision D3, log 5). -/
def Obligations.DecodesSampleWords : Prop :=
  ∀ p : Params, p.standardTables → p.c0Class = .comScanInc →
    decode p .control [0b01000000] = .ok (.ctrl false true 0, []) ∧
    decode p .data [0b10101111] = .ok (.data 0xAF, []) ∧
    decode p .command [0b00001010] = .ok (.setColLo 10, []) ∧
    decode p .command [0b00010011] = .ok (.setColHi 3, []) ∧
    decode p .command [0b10110111] = .ok (.setPage 7, []) ∧
    decode p .command [0b10000001, 0x10] = .ok (.setContrast 0x10, []) ∧
    decode p .command [0b11011001, 0xF1] = .ok (.setPrecharge 0xF1, []) ∧
    decode p .command [0b11000000] = .ok (.comScanInc, []) ∧
    decode p .command [0b10101000, 0x3F] = .ok (.setMux 0x3F, []) ∧
    decode p .command [0b10101111, 0xAF] = .ok (.displayOn, [0xAF]) ∧
    decode p .command [0b11100011] = .ok (.nop, []) ∧
    decode p .command [0b10101101] = .ok (.unrecognized 0xAD, [])

/-- R75, R79: with the tables of R74, exactly 195 opcode bytes are unrecognized, the ones R75 lists. -/
def Obligations.UnrecognizedBytesAreTheListed : Prop :=
  ∀ (p : Params) (op : Byte), p.standardTables → p.c0Class = .comScanInc →
    (classify p op = .unrecognized ↔
      (0x18 ≤ op ∧ op ≤ 0x1F) ∨ (0x22 ≤ op ∧ op ≤ 0x80) ∨ (0x82 ≤ op ∧ op ≤ 0x9F) ∨ op = 0xA2 ∨ op = 0xA3 ∨
      (0xA9 ≤ op ∧ op ≤ 0xAD) ∨ (0xC1 ≤ op ∧ op ≤ 0xC7) ∨ (0xC9 ≤ op ∧ op ≤ 0xD2) ∨ op = 0xD4 ∨
      (0xD6 ≤ op ∧ op ≤ 0xD8) ∨ (0xDD ≤ op ∧ op ≤ 0xE2) ∨ 0xE4 ≤ op) ∧
    ((List.range 256).filter fun n => decide (classify p (BitVec.ofNat 8 n) = .unrecognized)).length = 195

/-- R81, R169, D5 (log 7): byte 0xC0 under both values of `C0_CLASS`. -/
def Obligations.ByteC0FollowsItsParameter : Prop :=
  ∀ (p : Params) (par : Byte), p.opcodeMap = OpcodeMap.sh1107 →
    (p.c0Class = .comScanInc → instrOf p 0xC0 par = .comScanInc) ∧
    (p.c0Class = .pageSelect → instrOf p 0xC0 par = .setPage 0 ∧ wellFormed p .comScanInc = false)

/-- With the tables of R74 and R76, the instructions without an encoding are COMSCANINC under `C0_CLASS = PageSelect`
(R152) and the opcodes R75 recognizes, taken as unrecognized. -/
def Obligations.IllFormedInstructions : Prop :=
  ∀ (p : Params) (i : Instr), p.standardTables →
    (wellFormed p i = false ↔
      (i = .comScanInc ∧ p.c0Class = .pageSelect) ∨
      ∃ op, i = .unrecognized op ∧ classify p op ≠ .unrecognized)

/-- Decoding the bytes of any well-formed instruction gives it back with what follows, under every opcode map, arity
table and `C0_CLASS`. -/
def Obligations.DecodeOfEncode : Prop :=
  ∀ (p : Params) (i : Instr) (rest : List Byte), wellFormed p i = true →
    decode p i.byteClass (encode p i ++ rest) = .ok (i, rest)

/-- With the tables of R74 and R76, whatever the decoder reads is a well-formed instruction of the kind asked for, and
its encoding is the bytes read; the one other spelling is byte 0xC0 under `C0_CLASS = PageSelect` (R169). -/
def Obligations.EncodeOfDecode : Prop :=
  ∀ (p : Params) (k : ByteClass) (bs : List Byte) (i : Instr) (rest : List Byte), p.standardTables →
    ¬(k = .command ∧ p.c0Class = .pageSelect ∧ bs.head? = some 0xC0) →
    decode p k bs = .ok (i, rest) →
    wellFormed p i = true ∧ i.byteClass = k ∧ encode p i ++ rest = bs

/-! ## What the commands do: results, completion and frame in one equation -/

/-- R142, R150, R151, R156 with R140, R141: SETCONTRAST, SETCLKDIV, SETPRECHARGE and SETSTARTLINE complete in every
state; each writes its registers and requests a render when the display is on, and nothing else. -/
def Obligations.ParameterCommandsResults : Prop :=
  ∀ (p : Byte) (s : State),
    exec (.setContrast p) s = .next ({ s with contrast := p }.armed s.displayOn) ∧
    exec (.setClkDiv p) s =
      .next ({ s with clockDivider := BitVec.ofNat 8 (1 + p.toNat % 16) }.armed s.displayOn) ∧
    exec (.setPrecharge p) s =
      .next ({ s with phase1 := p.extractLsb' 0 4, phase2 := p.extractLsb' 4 4 }.armed s.displayOn) ∧
    exec (.setStartLine p) s = .next ({ s with startLine := p }.armed s.displayOn)

/-- R143, R144 with R140: DISPLAYOFF and DISPLAYON complete in every state, write `display_on` and always request a
render; nothing else changes. -/
def Obligations.DisplayCommandsResults : Prop :=
  ∀ s : State,
    exec .displayOff s = .next ({ s with displayOn := false }.armed true) ∧
    exec .displayOn s = .next ({ s with displayOn := true }.armed true)

/-- R145: the render request of DISPLAYOFF and DISPLAYON does not depend on the earlier `display_on`, on a change of it
or on the redraw-needed flag; it arms a timer only if `redraw_pending` was false. -/
def Obligations.DisplayCommandsAlwaysRequest : Prop :=
  ∀ (s : State) (i : Instr), i = .displayOff ∨ i = .displayOn → ∃ t, exec i s = .next t ∧
    t.redrawPending = true ∧
    (s.redrawPending = true → t.outbox = s.outbox) ∧
    (s.redrawPending = false → t.outbox = s.outbox ++ [.armTimer s.params.renderDelay])

/-- R146 to R149 and R152 to R155 with R140, R141: the eight commands that write one flag or the addressing mode complete
in every state and request a render when the display is on; nothing else changes. -/
def Obligations.FlagCommandsResults : Prop :=
  ∀ s : State,
    exec .normal s = .next ({ s with invert := false }.armed s.displayOn) ∧
    exec .invert s = .next ({ s with invert := true }.armed s.displayOn) ∧
    exec .pageMode s = .next ({ s with memoryMode := .page }.armed s.displayOn) ∧
    exec .vertMode s = .next ({ s with memoryMode := .vertical }.armed s.displayOn) ∧
    exec .comScanInc s = .next ({ s with reverseRows := false }.armed s.displayOn) ∧
    exec .comScanDec s = .next ({ s with reverseRows := true }.armed s.displayOn) ∧
    exec .segRemap0 s = .next ({ s with segmentRemap := false }.armed s.displayOn) ∧
    exec .segRemap1 s = .next ({ s with segmentRemap := true }.armed s.displayOn)

/-- R165 to R168: SETCOLLO and SETCOLHI write their bits of the column, keep the others and request no render; SETPAGE
writes the page, keeps the column and requests one when the display is on; nothing else changes. -/
def Obligations.CursorCommandsResults : Prop :=
  ∀ s : State,
    (∀ n : BitVec 4, exec (.setColLo n) s = .next { s with activeColumn := s.activeColumn.extractLsb' 4 3 ++ n }) ∧
    (∀ n : BitVec 3, exec (.setColHi n) s = .next { s with activeColumn := n ++ s.activeColumn.extractLsb' 0 4 }) ∧
    (∀ n : BitVec 4, exec (.setPage n) s = .next ({ s with activePage := n }.armed s.displayOn))

/-- R157 to R163: the six opcodes of the "not implemented" set complete in every state and change nothing. -/
def Obligations.NotImplementedCommandsChangeNothing : Prop :=
  ∀ (s : State) (p : Byte),
    exec (.setDispOffset p) s = .next s ∧ exec (.setMux p) s = .next s ∧ exec (.setVcomDesel p) s = .next s ∧
    exec (.setComPins p) s = .next s ∧ exec .allOnResume s = .next s ∧ exec .allOnForced s = .next s

/-- R157: a command of the "not implemented" set, sent with its declared parameter count, leaves all registers, memory
and the frame, requests no render, and resets the command index to 0. -/
def Obligations.NotImplementedCommandsOnTheBus : Prop :=
  ∀ (s : State) (i : Instr) (rest : List Event), notImplemented i = true → wellFormed s.params i = true →
    s.commandReady → s.inbox = writes (encode s.params i) ++ rest →
    ∃ t, run (encode s.params i).length s = .next t ∧ s.sameRegisters t ∧ t.pixmem = s.pixmem ∧
      t.frame = s.frame ∧ t.redrawPending = s.redrawPending ∧ t.cmdIndex = 0 ∧ t.commandReady ∧ t.inbox = rest ∧
      t.cmdBuf.toList.take (encode s.params i).length = encode s.params i ∧
      t.outbox = s.outbox ++ List.replicate (encode s.params i).length (.ack true)

/-- R164, R170, R251 with the parameters of D7 (log 8): NOP and an unrecognized opcode complete in every state and change
no register; the latter emits `Diag(op)`. -/
def Obligations.NopAndUnrecognizedResults : Prop :=
  ∀ (s : State) (op : Byte),
    exec .nop s = .next (s.armed (s.params.redrawOnNop && s.displayOn)) ∧
    exec (.unrecognized op) s =
      .next ({ s with outbox := s.outbox ++ [Output.diag op] }.armed (s.params.redrawOnUnknown && s.displayOn))

/-! ## The data writer -/

/-- R200 to R205: a data byte completes in every state; in page mode and in vertical mode, what it writes, and that
nothing else changes. -/
def Obligations.DataByteResults : Prop :=
  ∀ (s : State) (d : Byte) (col : Column),
    col = (if s.segmentRemap then 127 - s.activeColumn else s.activeColumn) →
    (s.memoryMode = .page →
      exec (.data d) s = .next ({ s with
        pixmem := Memory.write s.pixmem (s.activePage.toNat * 128 + col.toNat) d
        activeColumn := s.activeColumn + 1 }.armed true)) ∧
    (s.memoryMode = .vertical → s.activePage ≠ 15 →
      exec (.data d) s = .next ({ s with
        pixmem := Memory.write s.pixmem (s.activePage.toNat * 128 + col.toNat) d
        activePage := s.activePage + 1 }.armed true)) ∧
    (s.memoryMode = .vertical → s.activePage = 15 →
      exec (.data d) s = .next ({ s with
        pixmem := Memory.write s.pixmem (s.activePage.toNat * 128 + col.toNat) d
        activePage := 0
        activeColumn := s.activeColumn + 1 }.armed true))

/-- R202: a data byte is stored at `active_page * width + effective_column`, taken before the advance; the full byte is
replaced there, and every other byte of pixel memory reads as before. -/
def Obligations.DataByteStoresOneByte : Prop :=
  ∀ (s : State) (d : Byte), Memory.wf s.pixmem = true → ∃ t, exec (.data d) s = .next t ∧
    s.targetAddr.toNat = s.activePage.toNat * 128 +
      (if s.segmentRemap then 127 - s.activeColumn.toNat else s.activeColumn.toNat) ∧
    t.memRead s.targetAddr = d ∧ ∀ a : PixAddr, a ≠ s.targetAddr → t.memRead a = s.memRead a

/-- R203: the page-mode advance: the column modulo 128, and the page never. -/
def Obligations.PageModeAdvance : Prop :=
  ∀ (s : State) (d : Byte), s.memoryMode = .page → ∃ t, exec (.data d) s = .next t ∧
    t.activeColumn.toNat = (s.activeColumn.toNat + 1) % 128 ∧ t.activePage = s.activePage

/-- R204: sixteen data bytes in vertical mode from page 0 fill one column top to bottom, return to page 0 and leave the
next column modulo 128. -/
def Obligations.SixteenVerticalWritesFillAColumn : Prop :=
  ∀ (s : State) (ds : List Byte) (rest : List Event), Memory.wf s.pixmem = true → ds.length = 16 → s.dataReady →
    s.memoryMode = .vertical → s.activePage = 0 → s.inbox = writes ds ++ rest →
    ∃ t, run 16 s = .next t ∧ t.activePage = 0 ∧
      t.activeColumn.toNat = (s.activeColumn.toNat + 1) % 128 ∧ t.inbox = rest ∧
      ∀ (pg : Page) (c : Column), t.memRead (pixAddr pg c) =
        if c = effectiveColumn s.segmentRemap s.activeColumn then ds.getD pg.toNat 0 else s.memRead (pixAddr pg c)

/-- R205: every data byte requests a render, whatever `display_on` is; with the display off that render is all dark. -/
def Obligations.EveryDataByteRequestsARender : Prop :=
  ∀ (s : State) (d : Byte), ∃ t, exec (.data d) s = .next t ∧ t.redrawPending = true ∧
    (s.redrawPending = true → t.outbox = s.outbox) ∧
    (s.redrawPending = false → t.outbox = s.outbox ++ [.armTimer s.params.renderDelay]) ∧
    (s.displayOn = false → ∀ x y : Nat, x < 128 → y < 128 → t.fireTimer.cell (y * 128 + x) = s.params.pixelDark)

/-- R232, R220: two data bytes before a render fires arm one timer, and the render that fires shows the state after
both. -/
def Obligations.TwoWritesOneRender : Prop :=
  ∀ (s : State) (d e : Byte) (rest : List Event), s.dataReady → s.redrawPending = false →
    s.inbox = .write d :: .write e :: .timerFire :: rest →
    ∃ t u, run 2 s = .next t ∧
      t.outbox = s.outbox ++ [.armTimer s.params.renderDelay, .ack true, .ack true] ∧
      step t = .next u ∧ u.redrawPending = false ∧
      ∀ x y : Nat, x < 128 → y < 128 → u.cell (y * 128 + x) = t.frameFunction x y

/-! ## The renderer and its trigger -/

/-- R220: `RequestRender()`: a request with none pending sets the flag and arms the timer; a request with one pending
changes nothing and arms no second timer. -/
def Obligations.RenderRequestsCoalesce : Prop :=
  ∀ s : State,
    (s.redrawPending = false → s.requestRender = { s with
      redrawPending := true, outbox := s.outbox ++ [.armTimer s.params.renderDelay] }) ∧
    (s.redrawPending = true → s.requestRender = s)

/-- R222, R230: a `TimerFire` while a render is pending writes every cell of the frame with `F(S)` and clears the flag;
nothing else changes. -/
def Obligations.TimerFireRendersTheFrame : Prop :=
  ∀ (s : State) (rest : List Event), s.inbox = .timerFire :: rest → s.redrawPending = true →
    ∃ t, step s = .next t ∧ t = { s with inbox := rest, redrawPending := false, frame := t.frame } ∧
      ∀ x y : Nat, x < 128 → y < 128 → t.cell (y * 128 + x) = s.frameFunction x y

/-- R222, D20 (log 3): with no render pending there is no `TimerFire` step. -/
def Obligations.TimerFireNeedsARequest : Prop :=
  ∀ (s : State) (rest : List Event), s.inbox = .timerFire :: rest → s.redrawPending = false →
    step s = .refused .timerNotArmed

/-- R233: with the identity settings, output pixel `(x, y)` shows bit `y mod 8` of byte `(y / 8) * 128 + x`; with
`reverse_rows`, output row `y` shows memory row `127 - y`. -/
def Obligations.IdentityTransform : Prop :=
  ∀ (s : State) (x y : Nat), x < 128 → y < 128 → s.startLine = 0 → s.invert = false → s.displayOn = true →
    s.xOffset % 128 = 0 →
    (s.reverseRows = false → s.renderPixel x y =
      if (s.memRead (BitVec.ofNat 11 (y / 8 * 128 + x))).getLsbD (y % 8) then s.params.pixelLit
      else s.params.pixelDark) ∧
    (s.reverseRows = true → s.renderPixel x y =
      if (s.memRead (BitVec.ofNat 11 ((127 - y) / 8 * 128 + x))).getLsbD ((127 - y) % 8) then s.params.pixelLit
      else s.params.pixelDark)

/-- R156, R226: the render effect of `start_line` has period 128, and a scroll by `k` lines shows `k` rows further, with
and without `reverse_rows` (the Euclidean remainder is the spec's decision D8, log 9). -/
def Obligations.StartLineScrollsCyclically : Prop :=
  ∀ (s : State) (x y : Nat),
    { s with startLine := s.startLine + 128 }.renderPixel x y = s.renderPixel x y ∧
    s.renderPixel x (y + 128) = s.renderPixel x y ∧
    { s with startLine := 0 }.renderPixel x (y + s.startLine.toNat) = s.renderPixel x y

/-- R228: with the display off, a render writes `PIXEL_DARK` to every cell, whatever memory and the registers hold. -/
def Obligations.DisplayOffRendersDark : Prop :=
  ∀ (s : State), s.displayOn = false → ∀ x y : Nat, x < 128 → y < 128 →
    s.fireTimer.cell (y * 128 + x) = s.params.pixelDark

/-- R227, R228, D10: with distinct pixel values and the display on, `invert` complements every pixel. -/
def Obligations.InvertComplementsEveryPixel : Prop :=
  ∀ (s : State) (x y : Nat), s.params.binary → s.displayOn = true →
    ({ s with invert := !s.invert }.renderPixel x y = s.params.pixelLit ↔ s.renderPixel x y = s.params.pixelDark)

/-- R147: INVERT then NORMAL restores the frame exactly, from a state with `invert` clear. -/
def Obligations.InvertThenNormalRestoresTheFrame : Prop :=
  ∀ s : State, s.invert = false → ∃ t u, exec .invert s = .next t ∧ exec .normal t = .next u ∧
    u.fireTimer.frame = s.fireTimer.frame

/-- R58: a render pass is idempotent in the frame. -/
def Obligations.RenderPassIsIdempotent : Prop :=
  ∀ s : State, s.renderPass.renderPass = s.renderPass ∧ s.fireTimer.requestRender.fireTimer.frame = s.fireTimer.frame

/-- R281: a change of segment remap moves no byte of pixel memory and no pixel of the next frame. -/
def Obligations.SegmentRemapMovesNothingStored : Prop :=
  ∀ (s t : State), exec .segRemap0 s = .next t ∨ exec .segRemap1 s = .next t →
    t.pixmem = s.pixmem ∧ ∀ x y : Nat, t.renderPixel x y = s.renderPixel x y

/-- R229, D10 (log 11): the sink's bytes determine the frame's cells, whatever `SINK_BYTE_ORDER` is, and the four bytes
of a cell are its four byte lanes in that order. -/
def Obligations.SinkBytesDetermineTheFrame : Prop :=
  (∀ (s : State) (x y k : Nat), x < 128 → y < 128 → k < 4 →
    ∃ j < 4, s.sinkByte ((y * 128 + x) * 4 + k) = (s.cell (y * 128 + x)).extractLsb' (8 * j) 8) ∧
  (∀ s t : State, s.params.sinkByteOrder = t.params.sinkByteOrder →
    (∀ off < 65536, s.sinkByte off = t.sinkByte off) → s.frame = t.frame)

/-- R221, D2 (logs 1 and 2): once armed, a render always fires: after any finite list of bus events it has fired, and
then the frame shows the state. That the timer fires after the listed events is the model's choice (log 2). -/
def Obligations.ArmedRenderEventuallyFires : Prop :=
  ∀ s : State, s.redrawPending = true → (∀ e ∈ s.inbox, e.isBus = true) →
    ∃ t, run (s.inbox.length + 1) s = .next t ∧ t.redrawPending = false ∧ t.inbox = [] ∧ t.shows

/-! ## Whole-machine rules -/

/-- R250: every bus event completes and every byte sequence is accepted. -/
def Obligations.EveryByteSequenceAccepted : Prop :=
  ∀ s : State, (∀ e ∈ s.inbox, e.isBus = true) → ∃ t, run s.inbox.length s = .next t ∧ t.inbox = []

/-- R22, its column "written by", and R141: which instructions change which state. -/
def Obligations.OnlyTheNamedWritersChangeARegister : Prop :=
  ∀ (i : Instr) (s t : State), exec i s = .next t →
    (t.contrast ≠ s.contrast → ∃ p, i = .setContrast p) ∧
    (t.invert ≠ s.invert → i = .normal ∨ i = .invert) ∧
    (t.reverseRows ≠ s.reverseRows → i = .comScanInc ∨ i = .comScanDec) ∧
    (t.segmentRemap ≠ s.segmentRemap → i = .segRemap0 ∨ i = .segRemap1) ∧
    (t.displayOn ≠ s.displayOn → i = .displayOff ∨ i = .displayOn) ∧
    (t.memoryMode ≠ s.memoryMode → i = .pageMode ∨ i = .vertMode) ∧
    (t.clockDivider ≠ s.clockDivider → ∃ p, i = .setClkDiv p) ∧
    (t.phase1 ≠ s.phase1 ∨ t.phase2 ≠ s.phase2 → ∃ p, i = .setPrecharge p) ∧
    (t.startLine ≠ s.startLine → ∃ p, i = .setStartLine p) ∧
    (t.activeColumn ≠ s.activeColumn → (∃ n, i = .setColLo n) ∨ (∃ n, i = .setColHi n) ∨ ∃ d, i = .data d) ∧
    (t.activePage ≠ s.activePage →
      (∃ n, i = .setPage n) ∨ ((∃ d, i = .data d) ∧ s.memoryMode = .vertical)) ∧
    (t.pixmem ≠ s.pixmem → ∃ d, i = .data d) ∧
    (t.ctrlPending ≠ s.ctrlPending ∨ t.continuous ≠ s.continuous ∨ t.commandMode ≠ s.commandMode →
      ∃ co dc r, i = .ctrl co dc r) ∧
    (t.redrawPending ≠ s.redrawPending →
      renderForced i = true ∨ (∃ d, i = .data d) ∨ (redrawNeeded s.params i = true ∧ s.displayOn = true)) ∧
    t.frame = s.frame ∧ t.cmdBuf = s.cmdBuf ∧ t.cmdIndex = s.cmdIndex ∧ t.cmdExpected = s.cmdExpected ∧
    t.inbox = s.inbox

/-- R5, R30, R33: no step writes a parameter, `x_offset` or `multiplex`. -/
def Obligations.ConstantsAreNeverWritten : Prop :=
  ∀ s t : State, step s = .next t → t.params = s.params ∧ t.xOffset = s.xOffset ∧ t.multiplex = s.multiplex

/-- R275, R144: with the display off, the only step that turns it on is a byte that completes DISPLAYON. -/
def Obligations.OnlyDisplayOnTurnsTheDisplayOn : Prop :=
  ∀ s t : State, step s = .next t → s.displayOn = false → t.displayOn = true →
    ∃ b rest, s.inbox = .write b :: rest ∧ s.byteClass = .command ∧
      (s.expectedWith b).val ≤ s.cmdIndex.val + 1 ∧ (s.append b).buffered = .displayOn

/-- R23, R29, R30, R31, R228: `contrast`, `clock_divider`, `phase1`, `phase2` and `multiplex` affect no output: two
states that agree on all else step alike, to states that agree on all else. -/
def Obligations.StoredOnlyRegistersAffectNothing : Prop :=
  ∀ s t : State, s.sameButStored t →
    (∀ s', step s = .next s' → ∃ t', step t = .next t' ∧ s'.sameButStored t') ∧
    (∀ x, step s = .refused x → step t = .refused x)

/-- R83, R166 to R168: `GOTO #p, #c`, sent in continuous command mode with the tables of R74 and R76, sets the page and
the column. -/
def Obligations.GotoSetsTheCursors : Prop :=
  ∀ (s : State) (pg : Page) (c : Column) (rest : List Event), s.params.standardTables → s.commandReady →
    s.inbox = (goto pg c).flatMap (instrWrites s.params) ++ rest →
    ∃ t, run 3 s = .next t ∧ t.activePage = pg ∧ t.activeColumn = c ∧ t.pixmem = s.pixmem ∧ t.commandReady ∧
      t.inbox = rest

/-! ## Invariants -/

/-- The invariant holds after construction, for any parameters and any canonical pixel memory (R40, R45), and at
`State.reset`. -/
def Obligations.InvariantAtReset : Prop :=
  (∀ (p : Params) (x : Int) (m : Memory) (f : Frame), Memory.wf m = true → (State.constructed p x m f).Inv) ∧
  State.reset.Inv

/-- Every step keeps the invariant: canonical pixel memory; "`command_index < expected_length ≤ 8`" and the length of the
command in progress (R40); `clock_divider` in [1, 16] (R29); `multiplex` 63 (R30). -/
def Obligations.StepKeepsInvariant : Prop :=
  ∀ s t : State, s.Inv → step s = .next t → t.Inv

/-- R231: every step keeps "with no render pending, the frame equals `F(S)` of the current state", and a `TimerFire`
establishes it. -/
def Obligations.FrameInvariant : Prop :=
  (∀ s t : State, s.FrameFresh → step s = .next t → t.FrameFresh) ∧
  (∀ (s t : State) (rest : List Event), s.inbox = .timerFire :: rest → step s = .next t → t.FrameFresh)
end

