-- ==== Sys2Proof/Laws/State.lean ====
section
/-! SUPPORT. What each named update of the state leaves in each field, once and for all. -/

namespace Sys2Proof.Machine

/-! ### `emit` -/

@[simp] theorem State.emit_contrast (s : State) (o : Output) : (s.emit o).contrast = s.contrast := rfl
@[simp] theorem State.emit_invert (s : State) (o : Output) : (s.emit o).invert = s.invert := rfl
@[simp] theorem State.emit_reverseRows (s : State) (o : Output) : (s.emit o).reverseRows = s.reverseRows := rfl
@[simp] theorem State.emit_segmentRemap (s : State) (o : Output) : (s.emit o).segmentRemap = s.segmentRemap := rfl
@[simp] theorem State.emit_displayOn (s : State) (o : Output) : (s.emit o).displayOn = s.displayOn := rfl
@[simp] theorem State.emit_memoryMode (s : State) (o : Output) : (s.emit o).memoryMode = s.memoryMode := rfl
@[simp] theorem State.emit_clockDivider (s : State) (o : Output) : (s.emit o).clockDivider = s.clockDivider := rfl
@[simp] theorem State.emit_multiplex (s : State) (o : Output) : (s.emit o).multiplex = s.multiplex := rfl
@[simp] theorem State.emit_phase1 (s : State) (o : Output) : (s.emit o).phase1 = s.phase1 := rfl
@[simp] theorem State.emit_phase2 (s : State) (o : Output) : (s.emit o).phase2 = s.phase2 := rfl
@[simp] theorem State.emit_startLine (s : State) (o : Output) : (s.emit o).startLine = s.startLine := rfl
@[simp] theorem State.emit_xOffset (s : State) (o : Output) : (s.emit o).xOffset = s.xOffset := rfl
@[simp] theorem State.emit_activeColumn (s : State) (o : Output) : (s.emit o).activeColumn = s.activeColumn := rfl
@[simp] theorem State.emit_activePage (s : State) (o : Output) : (s.emit o).activePage = s.activePage := rfl
@[simp] theorem State.emit_ctrlPending (s : State) (o : Output) : (s.emit o).ctrlPending = s.ctrlPending := rfl
@[simp] theorem State.emit_continuous (s : State) (o : Output) : (s.emit o).continuous = s.continuous := rfl
@[simp] theorem State.emit_commandMode (s : State) (o : Output) : (s.emit o).commandMode = s.commandMode := rfl
@[simp] theorem State.emit_cmdBuf (s : State) (o : Output) : (s.emit o).cmdBuf = s.cmdBuf := rfl
@[simp] theorem State.emit_cmdIndex (s : State) (o : Output) : (s.emit o).cmdIndex = s.cmdIndex := rfl
@[simp] theorem State.emit_cmdExpected (s : State) (o : Output) : (s.emit o).cmdExpected = s.cmdExpected := rfl
@[simp] theorem State.emit_redrawPending (s : State) (o : Output) : (s.emit o).redrawPending = s.redrawPending := rfl
@[simp] theorem State.emit_pixmem (s : State) (o : Output) : (s.emit o).pixmem = s.pixmem := rfl
@[simp] theorem State.emit_frame (s : State) (o : Output) : (s.emit o).frame = s.frame := rfl
@[simp] theorem State.emit_params (s : State) (o : Output) : (s.emit o).params = s.params := rfl
@[simp] theorem State.emit_inbox (s : State) (o : Output) : (s.emit o).inbox = s.inbox := rfl

@[simp] theorem State.emit_outbox (s : State) (o : Output) : (s.emit o).outbox = s.outbox ++ [o] := rfl

/-! ### `memWrite` -/

@[simp] theorem State.memWrite_contrast (s : State) (a : PixAddr) (v : Byte) : (s.memWrite a v).contrast = s.contrast := rfl
@[simp] theorem State.memWrite_invert (s : State) (a : PixAddr) (v : Byte) : (s.memWrite a v).invert = s.invert := rfl
@[simp] theorem State.memWrite_reverseRows (s : State) (a : PixAddr) (v : Byte) : (s.memWrite a v).reverseRows = s.reverseRows := rfl
@[simp] theorem State.memWrite_segmentRemap (s : State) (a : PixAddr) (v : Byte) : (s.memWrite a v).segmentRemap = s.segmentRemap := rfl
@[simp] theorem State.memWrite_displayOn (s : State) (a : PixAddr) (v : Byte) : (s.memWrite a v).displayOn = s.displayOn := rfl
@[simp] theorem State.memWrite_memoryMode (s : State) (a : PixAddr) (v : Byte) : (s.memWrite a v).memoryMode = s.memoryMode := rfl
@[simp] theorem State.memWrite_clockDivider (s : State) (a : PixAddr) (v : Byte) : (s.memWrite a v).clockDivider = s.clockDivider := rfl
@[simp] theorem State.memWrite_multiplex (s : State) (a : PixAddr) (v : Byte) : (s.memWrite a v).multiplex = s.multiplex := rfl
@[simp] theorem State.memWrite_phase1 (s : State) (a : PixAddr) (v : Byte) : (s.memWrite a v).phase1 = s.phase1 := rfl
@[simp] theorem State.memWrite_phase2 (s : State) (a : PixAddr) (v : Byte) : (s.memWrite a v).phase2 = s.phase2 := rfl
@[simp] theorem State.memWrite_startLine (s : State) (a : PixAddr) (v : Byte) : (s.memWrite a v).startLine = s.startLine := rfl
@[simp] theorem State.memWrite_xOffset (s : State) (a : PixAddr) (v : Byte) : (s.memWrite a v).xOffset = s.xOffset := rfl
@[simp] theorem State.memWrite_activeColumn (s : State) (a : PixAddr) (v : Byte) : (s.memWrite a v).activeColumn = s.activeColumn := rfl
@[simp] theorem State.memWrite_activePage (s : State) (a : PixAddr) (v : Byte) : (s.memWrite a v).activePage = s.activePage := rfl
@[simp] theorem State.memWrite_ctrlPending (s : State) (a : PixAddr) (v : Byte) : (s.memWrite a v).ctrlPending = s.ctrlPending := rfl
@[simp] theorem State.memWrite_continuous (s : State) (a : PixAddr) (v : Byte) : (s.memWrite a v).continuous = s.continuous := rfl
@[simp] theorem State.memWrite_commandMode (s : State) (a : PixAddr) (v : Byte) : (s.memWrite a v).commandMode = s.commandMode := rfl
@[simp] theorem State.memWrite_cmdBuf (s : State) (a : PixAddr) (v : Byte) : (s.memWrite a v).cmdBuf = s.cmdBuf := rfl
@[simp] theorem State.memWrite_cmdIndex (s : State) (a : PixAddr) (v : Byte) : (s.memWrite a v).cmdIndex = s.cmdIndex := rfl
@[simp] theorem State.memWrite_cmdExpected (s : State) (a : PixAddr) (v : Byte) : (s.memWrite a v).cmdExpected = s.cmdExpected := rfl
@[simp] theorem State.memWrite_redrawPending (s : State) (a : PixAddr) (v : Byte) : (s.memWrite a v).redrawPending = s.redrawPending := rfl
@[simp] theorem State.memWrite_frame (s : State) (a : PixAddr) (v : Byte) : (s.memWrite a v).frame = s.frame := rfl
@[simp] theorem State.memWrite_params (s : State) (a : PixAddr) (v : Byte) : (s.memWrite a v).params = s.params := rfl
@[simp] theorem State.memWrite_inbox (s : State) (a : PixAddr) (v : Byte) : (s.memWrite a v).inbox = s.inbox := rfl
@[simp] theorem State.memWrite_outbox (s : State) (a : PixAddr) (v : Byte) : (s.memWrite a v).outbox = s.outbox := rfl

@[simp] theorem State.memWrite_pixmem (s : State) (a : PixAddr) (v : Byte) :
    (s.memWrite a v).pixmem = Memory.write s.pixmem a.toNat v := rfl

/-! ### `requestRender` (R220) -/

/-- All a render request can do. -/
theorem State.requestRender_eq (s : State) :
    s.requestRender =
      { s with
        redrawPending := true
        outbox := if s.redrawPending then s.outbox else s.outbox ++ [.armTimer s.params.renderDelay] } := by
  cases s with
  | mk _ _ _ _ _ _ _ _ _ _ _ _ _ _ _ _ _ _ _ _ rp => cases rp <;> rfl

/-- A second request changes nothing: requests coalesce. -/
@[simp] theorem State.requestRender_requestRender (s : State) :
    s.requestRender.requestRender = s.requestRender := by
  rw [State.requestRender, if_pos]
  rw [State.requestRender_eq]

/-! ### what a request leaves alone -/

@[simp] theorem State.requestRender_contrast (s : State) : (s.requestRender).contrast = s.contrast := by rw [State.requestRender_eq]
@[simp] theorem State.requestRender_invert (s : State) : (s.requestRender).invert = s.invert := by rw [State.requestRender_eq]
@[simp] theorem State.requestRender_reverseRows (s : State) : (s.requestRender).reverseRows = s.reverseRows := by rw [State.requestRender_eq]
@[simp] theorem State.requestRender_segmentRemap (s : State) : (s.requestRender).segmentRemap = s.segmentRemap := by rw [State.requestRender_eq]
@[simp] theorem State.requestRender_displayOn (s : State) : (s.requestRender).displayOn = s.displayOn := by rw [State.requestRender_eq]
@[simp] theorem State.requestRender_memoryMode (s : State) : (s.requestRender).memoryMode = s.memoryMode := by rw [State.requestRender_eq]
@[simp] theorem State.requestRender_clockDivider (s : State) : (s.requestRender).clockDivider = s.clockDivider := by rw [State.requestRender_eq]
@[simp] theorem State.requestRender_multiplex (s : State) : (s.requestRender).multiplex = s.multiplex := by rw [State.requestRender_eq]
@[simp] theorem State.requestRender_phase1 (s : State) : (s.requestRender).phase1 = s.phase1 := by rw [State.requestRender_eq]
@[simp] theorem State.requestRender_phase2 (s : State) : (s.requestRender).phase2 = s.phase2 := by rw [State.requestRender_eq]
@[simp] theorem State.requestRender_startLine (s : State) : (s.requestRender).startLine = s.startLine := by rw [State.requestRender_eq]
@[simp] theorem State.requestRender_xOffset (s : State) : (s.requestRender).xOffset = s.xOffset := by rw [State.requestRender_eq]
@[simp] theorem State.requestRender_activeColumn (s : State) : (s.requestRender).activeColumn = s.activeColumn := by rw [State.requestRender_eq]
@[simp] theorem State.requestRender_activePage (s : State) : (s.requestRender).activePage = s.activePage := by rw [State.requestRender_eq]
@[simp] theorem State.requestRender_ctrlPending (s : State) : (s.requestRender).ctrlPending = s.ctrlPending := by rw [State.requestRender_eq]
@[simp] theorem State.requestRender_continuous (s : State) : (s.requestRender).continuous = s.continuous := by rw [State.requestRender_eq]
@[simp] theorem State.requestRender_commandMode (s : State) : (s.requestRender).commandMode = s.commandMode := by rw [State.requestRender_eq]
@[simp] theorem State.requestRender_cmdBuf (s : State) : (s.requestRender).cmdBuf = s.cmdBuf := by rw [State.requestRender_eq]
@[simp] theorem State.requestRender_cmdIndex (s : State) : (s.requestRender).cmdIndex = s.cmdIndex := by rw [State.requestRender_eq]
@[simp] theorem State.requestRender_cmdExpected (s : State) : (s.requestRender).cmdExpected = s.cmdExpected := by rw [State.requestRender_eq]
@[simp] theorem State.requestRender_pixmem (s : State) : (s.requestRender).pixmem = s.pixmem := by rw [State.requestRender_eq]
@[simp] theorem State.requestRender_frame (s : State) : (s.requestRender).frame = s.frame := by rw [State.requestRender_eq]
@[simp] theorem State.requestRender_params (s : State) : (s.requestRender).params = s.params := by rw [State.requestRender_eq]
@[simp] theorem State.requestRender_inbox (s : State) : (s.requestRender).inbox = s.inbox := by rw [State.requestRender_eq]

@[simp] theorem State.requestRender_redrawPending (s : State) : s.requestRender.redrawPending = true := by
  rw [State.requestRender_eq]

@[simp] theorem State.requestRender_outbox (s : State) :
    s.requestRender.outbox =
      if s.redrawPending then s.outbox else s.outbox ++ [.armTimer s.params.renderDelay] := by
  rw [State.requestRender_eq]

/-! ### `endOfForwardedByte` (R104) -/

@[simp] theorem State.endOfForwardedByte_contrast (s : State) : (s.endOfForwardedByte).contrast = s.contrast := by unfold State.endOfForwardedByte; split <;> rfl
@[simp] theorem State.endOfForwardedByte_invert (s : State) : (s.endOfForwardedByte).invert = s.invert := by unfold State.endOfForwardedByte; split <;> rfl
@[simp] theorem State.endOfForwardedByte_reverseRows (s : State) : (s.endOfForwardedByte).reverseRows = s.reverseRows := by unfold State.endOfForwardedByte; split <;> rfl
@[simp] theorem State.endOfForwardedByte_segmentRemap (s : State) : (s.endOfForwardedByte).segmentRemap = s.segmentRemap := by unfold State.endOfForwardedByte; split <;> rfl
@[simp] theorem State.endOfForwardedByte_displayOn (s : State) : (s.endOfForwardedByte).displayOn = s.displayOn := by unfold State.endOfForwardedByte; split <;> rfl
@[simp] theorem State.endOfForwardedByte_memoryMode (s : State) : (s.endOfForwardedByte).memoryMode = s.memoryMode := by unfold State.endOfForwardedByte; split <;> rfl
@[simp] theorem State.endOfForwardedByte_clockDivider (s : State) : (s.endOfForwardedByte).clockDivider = s.clockDivider := by unfold State.endOfForwardedByte; split <;> rfl
@[simp] theorem State.endOfForwardedByte_multiplex (s : State) : (s.endOfForwardedByte).multiplex = s.multiplex := by unfold State.endOfForwardedByte; split <;> rfl
@[simp] theorem State.endOfForwardedByte_phase1 (s : State) : (s.endOfForwardedByte).phase1 = s.phase1 := by unfold State.endOfForwardedByte; split <;> rfl
@[simp] theorem State.endOfForwardedByte_phase2 (s : State) : (s.endOfForwardedByte).phase2 = s.phase2 := by unfold State.endOfForwardedByte; split <;> rfl
@[simp] theorem State.endOfForwardedByte_startLine (s : State) : (s.endOfForwardedByte).startLine = s.startLine := by unfold State.endOfForwardedByte; split <;> rfl
@[simp] theorem State.endOfForwardedByte_xOffset (s : State) : (s.endOfForwardedByte).xOffset = s.xOffset := by unfold State.endOfForwardedByte; split <;> rfl
@[simp] theorem State.endOfForwardedByte_activeColumn (s : State) : (s.endOfForwardedByte).activeColumn = s.activeColumn := by unfold State.endOfForwardedByte; split <;> rfl
@[simp] theorem State.endOfForwardedByte_activePage (s : State) : (s.endOfForwardedByte).activePage = s.activePage := by unfold State.endOfForwardedByte; split <;> rfl
@[simp] theorem State.endOfForwardedByte_continuous (s : State) : (s.endOfForwardedByte).continuous = s.continuous := by unfold State.endOfForwardedByte; split <;> rfl
@[simp] theorem State.endOfForwardedByte_commandMode (s : State) : (s.endOfForwardedByte).commandMode = s.commandMode := by unfold State.endOfForwardedByte; split <;> rfl
@[simp] theorem State.endOfForwardedByte_cmdBuf (s : State) : (s.endOfForwardedByte).cmdBuf = s.cmdBuf := by unfold State.endOfForwardedByte; split <;> rfl
@[simp] theorem State.endOfForwardedByte_cmdIndex (s : State) : (s.endOfForwardedByte).cmdIndex = s.cmdIndex := by unfold State.endOfForwardedByte; split <;> rfl
@[simp] theorem State.endOfForwardedByte_cmdExpected (s : State) : (s.endOfForwardedByte).cmdExpected = s.cmdExpected := by unfold State.endOfForwardedByte; split <;> rfl
@[simp] theorem State.endOfForwardedByte_redrawPending (s : State) : (s.endOfForwardedByte).redrawPending = s.redrawPending := by unfold State.endOfForwardedByte; split <;> rfl
@[simp] theorem State.endOfForwardedByte_pixmem (s : State) : (s.endOfForwardedByte).pixmem = s.pixmem := by unfold State.endOfForwardedByte; split <;> rfl
@[simp] theorem State.endOfForwardedByte_frame (s : State) : (s.endOfForwardedByte).frame = s.frame := by unfold State.endOfForwardedByte; split <;> rfl
@[simp] theorem State.endOfForwardedByte_params (s : State) : (s.endOfForwardedByte).params = s.params := by unfold State.endOfForwardedByte; split <;> rfl
@[simp] theorem State.endOfForwardedByte_inbox (s : State) : (s.endOfForwardedByte).inbox = s.inbox := by unfold State.endOfForwardedByte; split <;> rfl
@[simp] theorem State.endOfForwardedByte_outbox (s : State) : (s.endOfForwardedByte).outbox = s.outbox := by unfold State.endOfForwardedByte; split <;> rfl

@[simp] theorem State.endOfForwardedByte_ctrlPending (s : State) :
    s.endOfForwardedByte.ctrlPending = (s.ctrlPending || !s.continuous) := by
  unfold State.endOfForwardedByte; split <;> simp_all

/-! ### `finishCommand` (R140, R141) -/

/-- The end of a command requests one render or none. -/
theorem State.finishCommand_eq (i : Instr) (s : State) :
    s.finishCommand i =
      if (redrawNeeded s.params i && s.displayOn) || renderForced i then s.requestRender else s := by
  unfold State.finishCommand
  cases redrawNeeded s.params i && s.displayOn <;> cases renderForced i <;> simp

@[simp] theorem State.finishCommand_contrast (i : Instr) (s : State) : (s.finishCommand i).contrast = s.contrast := by
  rw [State.finishCommand_eq]; split <;> simp
@[simp] theorem State.finishCommand_invert (i : Instr) (s : State) : (s.finishCommand i).invert = s.invert := by
  rw [State.finishCommand_eq]; split <;> simp
@[simp] theorem State.finishCommand_reverseRows (i : Instr) (s : State) : (s.finishCommand i).reverseRows = s.reverseRows := by
  rw [State.finishCommand_eq]; split <;> simp
@[simp] theorem State.finishCommand_segmentRemap (i : Instr) (s : State) : (s.finishCommand i).segmentRemap = s.segmentRemap := by
  rw [State.finishCommand_eq]; split <;> simp
@[simp] theorem State.finishCommand_displayOn (i : Instr) (s : State) : (s.finishCommand i).displayOn = s.displayOn := by
  rw [State.finishCommand_eq]; split <;> simp
@[simp] theorem State.finishCommand_memoryMode (i : Instr) (s : State) : (s.finishCommand i).memoryMode = s.memoryMode := by
  rw [State.finishCommand_eq]; split <;> simp
@[simp] theorem State.finishCommand_clockDivider (i : Instr) (s : State) : (s.finishCommand i).clockDivider = s.clockDivider := by
  rw [State.finishCommand_eq]; split <;> simp
@[simp] theorem State.finishCommand_multiplex (i : Instr) (s : State) : (s.finishCommand i).multiplex = s.multiplex := by
  rw [State.finishCommand_eq]; split <;> simp
@[simp] theorem State.finishCommand_phase1 (i : Instr) (s : State) : (s.finishCommand i).phase1 = s.phase1 := by
  rw [State.finishCommand_eq]; split <;> simp
@[simp] theorem State.finishCommand_phase2 (i : Instr) (s : State) : (s.finishCommand i).phase2 = s.phase2 := by
  rw [State.finishCommand_eq]; split <;> simp
@[simp] theorem State.finishCommand_startLine (i : Instr) (s : State) : (s.finishCommand i).startLine = s.startLine := by
  rw [State.finishCommand_eq]; split <;> simp
@[simp] theorem State.finishCommand_xOffset (i : Instr) (s : State) : (s.finishCommand i).xOffset = s.xOffset := by
  rw [State.finishCommand_eq]; split <;> simp
@[simp] theorem State.finishCommand_activeColumn (i : Instr) (s : State) : (s.finishCommand i).activeColumn = s.activeColumn := by
  rw [State.finishCommand_eq]; split <;> simp
@[simp] theorem State.finishCommand_activePage (i : Instr) (s : State) : (s.finishCommand i).activePage = s.activePage := by
  rw [State.finishCommand_eq]; split <;> simp
@[simp] theorem State.finishCommand_ctrlPending (i : Instr) (s : State) : (s.finishCommand i).ctrlPending = s.ctrlPending := by
  rw [State.finishCommand_eq]; split <;> simp
@[simp] theorem State.finishCommand_continuous (i : Instr) (s : State) : (s.finishCommand i).continuous = s.continuous := by
  rw [State.finishCommand_eq]; split <;> simp
@[simp] theorem State.finishCommand_commandMode (i : Instr) (s : State) : (s.finishCommand i).commandMode = s.commandMode := by
  rw [State.finishCommand_eq]; split <;> simp
@[simp] theorem State.finishCommand_cmdBuf (i : Instr) (s : State) : (s.finishCommand i).cmdBuf = s.cmdBuf := by
  rw [State.finishCommand_eq]; split <;> simp
@[simp] theorem State.finishCommand_cmdIndex (i : Instr) (s : State) : (s.finishCommand i).cmdIndex = s.cmdIndex := by
  rw [State.finishCommand_eq]; split <;> simp
@[simp] theorem State.finishCommand_cmdExpected (i : Instr) (s : State) : (s.finishCommand i).cmdExpected = s.cmdExpected := by
  rw [State.finishCommand_eq]; split <;> simp
@[simp] theorem State.finishCommand_pixmem (i : Instr) (s : State) : (s.finishCommand i).pixmem = s.pixmem := by
  rw [State.finishCommand_eq]; split <;> simp
@[simp] theorem State.finishCommand_frame (i : Instr) (s : State) : (s.finishCommand i).frame = s.frame := by
  rw [State.finishCommand_eq]; split <;> simp
@[simp] theorem State.finishCommand_params (i : Instr) (s : State) : (s.finishCommand i).params = s.params := by
  rw [State.finishCommand_eq]; split <;> simp
@[simp] theorem State.finishCommand_inbox (i : Instr) (s : State) : (s.finishCommand i).inbox = s.inbox := by
  rw [State.finishCommand_eq]; split <;> simp

@[simp] theorem State.finishCommand_redrawPending (i : Instr) (s : State) :
    (s.finishCommand i).redrawPending =
      (s.redrawPending || (redrawNeeded s.params i && s.displayOn) || renderForced i) := by
  rw [State.finishCommand_eq, Bool.or_assoc]
  cases (redrawNeeded s.params i && s.displayOn) || renderForced i <;> simp

@[simp] theorem State.finishCommand_outbox (i : Instr) (s : State) :
    (s.finishCommand i).outbox =
      if ((redrawNeeded s.params i && s.displayOn) || renderForced i) && !s.redrawPending then
        s.outbox ++ [.armTimer s.params.renderDelay]
      else s.outbox := by
  rw [State.finishCommand_eq]
  cases (redrawNeeded s.params i && s.displayOn) || renderForced i <;> cases h : s.redrawPending <;> simp [h]

/-! ### `advance` (R203, R204) -/

@[simp] theorem State.advance_contrast (s : State) : (s.advance).contrast = s.contrast := by
  unfold State.advance State.advancePage State.advanceVertical; split <;> [rfl; split <;> rfl]
@[simp] theorem State.advance_invert (s : State) : (s.advance).invert = s.invert := by
  unfold State.advance State.advancePage State.advanceVertical; split <;> [rfl; split <;> rfl]
@[simp] theorem State.advance_reverseRows (s : State) : (s.advance).reverseRows = s.reverseRows := by
  unfold State.advance State.advancePage State.advanceVertical; split <;> [rfl; split <;> rfl]
@[simp] theorem State.advance_segmentRemap (s : State) : (s.advance).segmentRemap = s.segmentRemap := by
  unfold State.advance State.advancePage State.advanceVertical; split <;> [rfl; split <;> rfl]
@[simp] theorem State.advance_displayOn (s : State) : (s.advance).displayOn = s.displayOn := by
  unfold State.advance State.advancePage State.advanceVertical; split <;> [rfl; split <;> rfl]
@[simp] theorem State.advance_memoryMode (s : State) : (s.advance).memoryMode = s.memoryMode := by
  unfold State.advance State.advancePage State.advanceVertical; split <;> [rfl; split <;> rfl]
@[simp] theorem State.advance_clockDivider (s : State) : (s.advance).clockDivider = s.clockDivider := by
  unfold State.advance State.advancePage State.advanceVertical; split <;> [rfl; split <;> rfl]
@[simp] theorem State.advance_multiplex (s : State) : (s.advance).multiplex = s.multiplex := by
  unfold State.advance State.advancePage State.advanceVertical; split <;> [rfl; split <;> rfl]
@[simp] theorem State.advance_phase1 (s : State) : (s.advance).phase1 = s.phase1 := by
  unfold State.advance State.advancePage State.advanceVertical; split <;> [rfl; split <;> rfl]
@[simp] theorem State.advance_phase2 (s : State) : (s.advance).phase2 = s.phase2 := by
  unfold State.advance State.advancePage State.advanceVertical; split <;> [rfl; split <;> rfl]
@[simp] theorem State.advance_startLine (s : State) : (s.advance).startLine = s.startLine := by
  unfold State.advance State.advancePage State.advanceVertical; split <;> [rfl; split <;> rfl]
@[simp] theorem State.advance_xOffset (s : State) : (s.advance).xOffset = s.xOffset := by
  unfold State.advance State.advancePage State.advanceVertical; split <;> [rfl; split <;> rfl]
@[simp] theorem State.advance_ctrlPending (s : State) : (s.advance).ctrlPending = s.ctrlPending := by
  unfold State.advance State.advancePage State.advanceVertical; split <;> [rfl; split <;> rfl]
@[simp] theorem State.advance_continuous (s : State) : (s.advance).continuous = s.continuous := by
  unfold State.advance State.advancePage State.advanceVertical; split <;> [rfl; split <;> rfl]
@[simp] theorem State.advance_commandMode (s : State) : (s.advance).commandMode = s.commandMode := by
  unfold State.advance State.advancePage State.advanceVertical; split <;> [rfl; split <;> rfl]
@[simp] theorem State.advance_cmdBuf (s : State) : (s.advance).cmdBuf = s.cmdBuf := by
  unfold State.advance State.advancePage State.advanceVertical; split <;> [rfl; split <;> rfl]
@[simp] theorem State.advance_cmdIndex (s : State) : (s.advance).cmdIndex = s.cmdIndex := by
  unfold State.advance State.advancePage State.advanceVertical; split <;> [rfl; split <;> rfl]
@[simp] theorem State.advance_cmdExpected (s : State) : (s.advance).cmdExpected = s.cmdExpected := by
  unfold State.advance State.advancePage State.advanceVertical; split <;> [rfl; split <;> rfl]
@[simp] theorem State.advance_redrawPending (s : State) : (s.advance).redrawPending = s.redrawPending := by
  unfold State.advance State.advancePage State.advanceVertical; split <;> [rfl; split <;> rfl]
@[simp] theorem State.advance_pixmem (s : State) : (s.advance).pixmem = s.pixmem := by
  unfold State.advance State.advancePage State.advanceVertical; split <;> [rfl; split <;> rfl]
@[simp] theorem State.advance_frame (s : State) : (s.advance).frame = s.frame := by
  unfold State.advance State.advancePage State.advanceVertical; split <;> [rfl; split <;> rfl]
@[simp] theorem State.advance_params (s : State) : (s.advance).params = s.params := by
  unfold State.advance State.advancePage State.advanceVertical; split <;> [rfl; split <;> rfl]
@[simp] theorem State.advance_inbox (s : State) : (s.advance).inbox = s.inbox := by
  unfold State.advance State.advancePage State.advanceVertical; split <;> [rfl; split <;> rfl]
@[simp] theorem State.advance_outbox (s : State) : (s.advance).outbox = s.outbox := by
  unfold State.advance State.advancePage State.advanceVertical; split <;> [rfl; split <;> rfl]

/-! ### `append` (R121) -/

@[simp] theorem State.append_contrast (s : State) (b : Byte) : (s.append b).contrast = s.contrast := rfl
@[simp] theorem State.append_invert (s : State) (b : Byte) : (s.append b).invert = s.invert := rfl
@[simp] theorem State.append_reverseRows (s : State) (b : Byte) : (s.append b).reverseRows = s.reverseRows := rfl
@[simp] theorem State.append_segmentRemap (s : State) (b : Byte) : (s.append b).segmentRemap = s.segmentRemap := rfl
@[simp] theorem State.append_displayOn (s : State) (b : Byte) : (s.append b).displayOn = s.displayOn := rfl
@[simp] theorem State.append_memoryMode (s : State) (b : Byte) : (s.append b).memoryMode = s.memoryMode := rfl
@[simp] theorem State.append_clockDivider (s : State) (b : Byte) : (s.append b).clockDivider = s.clockDivider := rfl
@[simp] theorem State.append_multiplex (s : State) (b : Byte) : (s.append b).multiplex = s.multiplex := rfl
@[simp] theorem State.append_phase1 (s : State) (b : Byte) : (s.append b).phase1 = s.phase1 := rfl
@[simp] theorem State.append_phase2 (s : State) (b : Byte) : (s.append b).phase2 = s.phase2 := rfl
@[simp] theorem State.append_startLine (s : State) (b : Byte) : (s.append b).startLine = s.startLine := rfl
@[simp] theorem State.append_xOffset (s : State) (b : Byte) : (s.append b).xOffset = s.xOffset := rfl
@[simp] theorem State.append_activeColumn (s : State) (b : Byte) : (s.append b).activeColumn = s.activeColumn := rfl
@[simp] theorem State.append_activePage (s : State) (b : Byte) : (s.append b).activePage = s.activePage := rfl
@[simp] theorem State.append_ctrlPending (s : State) (b : Byte) : (s.append b).ctrlPending = s.ctrlPending := rfl
@[simp] theorem State.append_continuous (s : State) (b : Byte) : (s.append b).continuous = s.continuous := rfl
@[simp] theorem State.append_commandMode (s : State) (b : Byte) : (s.append b).commandMode = s.commandMode := rfl
@[simp] theorem State.append_cmdIndex (s : State) (b : Byte) : (s.append b).cmdIndex = s.cmdIndex := rfl
@[simp] theorem State.append_redrawPending (s : State) (b : Byte) : (s.append b).redrawPending = s.redrawPending := rfl
@[simp] theorem State.append_pixmem (s : State) (b : Byte) : (s.append b).pixmem = s.pixmem := rfl
@[simp] theorem State.append_frame (s : State) (b : Byte) : (s.append b).frame = s.frame := rfl
@[simp] theorem State.append_params (s : State) (b : Byte) : (s.append b).params = s.params := rfl
@[simp] theorem State.append_inbox (s : State) (b : Byte) : (s.append b).inbox = s.inbox := rfl
@[simp] theorem State.append_outbox (s : State) (b : Byte) : (s.append b).outbox = s.outbox := rfl

@[simp] theorem State.append_cmdExpected (s : State) (b : Byte) : (s.append b).cmdExpected = s.expectedWith b := rfl

@[simp] theorem State.append_cmdBuf (s : State) (b : Byte) :
    (s.append b).cmdBuf = s.cmdBuf.set s.cmdIndex.val b s.cmdIndex.isLt := rfl

/-! ### `fireTimer` (R222) -/

@[simp] theorem State.fireTimer_contrast (s : State) : (s.fireTimer).contrast = s.contrast := rfl
@[simp] theorem State.fireTimer_invert (s : State) : (s.fireTimer).invert = s.invert := rfl
@[simp] theorem State.fireTimer_reverseRows (s : State) : (s.fireTimer).reverseRows = s.reverseRows := rfl
@[simp] theorem State.fireTimer_segmentRemap (s : State) : (s.fireTimer).segmentRemap = s.segmentRemap := rfl
@[simp] theorem State.fireTimer_displayOn (s : State) : (s.fireTimer).displayOn = s.displayOn := rfl
@[simp] theorem State.fireTimer_memoryMode (s : State) : (s.fireTimer).memoryMode = s.memoryMode := rfl
@[simp] theorem State.fireTimer_clockDivider (s : State) : (s.fireTimer).clockDivider = s.clockDivider := rfl
@[simp] theorem State.fireTimer_multiplex (s : State) : (s.fireTimer).multiplex = s.multiplex := rfl
@[simp] theorem State.fireTimer_phase1 (s : State) : (s.fireTimer).phase1 = s.phase1 := rfl
@[simp] theorem State.fireTimer_phase2 (s : State) : (s.fireTimer).phase2 = s.phase2 := rfl
@[simp] theorem State.fireTimer_startLine (s : State) : (s.fireTimer).startLine = s.startLine := rfl
@[simp] theorem State.fireTimer_xOffset (s : State) : (s.fireTimer).xOffset = s.xOffset := rfl
@[simp] theorem State.fireTimer_activeColumn (s : State) : (s.fireTimer).activeColumn = s.activeColumn := rfl
@[simp] theorem State.fireTimer_activePage (s : State) : (s.fireTimer).activePage = s.activePage := rfl
@[simp] theorem State.fireTimer_ctrlPending (s : State) : (s.fireTimer).ctrlPending = s.ctrlPending := rfl
@[simp] theorem State.fireTimer_continuous (s : State) : (s.fireTimer).continuous = s.continuous := rfl
@[simp] theorem State.fireTimer_commandMode (s : State) : (s.fireTimer).commandMode = s.commandMode := rfl
@[simp] theorem State.fireTimer_cmdBuf (s : State) : (s.fireTimer).cmdBuf = s.cmdBuf := rfl
@[simp] theorem State.fireTimer_cmdIndex (s : State) : (s.fireTimer).cmdIndex = s.cmdIndex := rfl
@[simp] theorem State.fireTimer_cmdExpected (s : State) : (s.fireTimer).cmdExpected = s.cmdExpected := rfl
@[simp] theorem State.fireTimer_pixmem (s : State) : (s.fireTimer).pixmem = s.pixmem := rfl
@[simp] theorem State.fireTimer_params (s : State) : (s.fireTimer).params = s.params := rfl
@[simp] theorem State.fireTimer_inbox (s : State) : (s.fireTimer).inbox = s.inbox := rfl
@[simp] theorem State.fireTimer_outbox (s : State) : (s.fireTimer).outbox = s.outbox := rfl

@[simp] theorem State.fireTimer_redrawPending (s : State) : s.fireTimer.redrawPending = false := rfl

@[simp] theorem State.fireTimer_frame (s : State) :
    s.fireTimer.frame = Frame.build fun k => s.renderPixel (k % W) (k / W) := rfl

end Sys2Proof.Machine
end

