-- ==== Sys2Proof/Laws/Step.lean ====
section
/-! SUPPORT. The laws of the step: one event of the inbox, and what each event's operation can do. -/

namespace Sys2Proof.Machine

@[simp] theorem andThen_next (s : State) (k : State → Result) : andThen (.next s) k = k s := rfl
@[simp] theorem andThen_fault (f : Fault) (k : State → Result) : andThen (.fault f) k = .fault f := rfl
@[simp] theorem andThen_refused (x : Refusal) (k : State → Result) : andThen (.refused x) k = .refused x := rfl

/-- A sequence answers a next state only through a next state of its first part. -/
theorem andThen_eq_next {r : Result} {k : State → Result} {t : State} (h : andThen r k = .next t) :
    ∃ s, r = .next s ∧ k s = .next t := by
  cases r with
  | next s => exact ⟨s, rfl, h⟩
  | fault f => cases f
  | refused x => cases h

@[simp] theorem run_zero (s : State) : run 0 s = .next s := rfl

theorem run_succ (k : Nat) (s : State) : run (k + 1) s = andThen (step s) (run k) := rfl

/-- `run` is the host's `Core.run` of this machine. -/
theorem run_eq_core_run (k : Nat) (s : State) : run k s = Host.Core.run core k s := by
  induction k generalizing s with
  | zero => rfl
  | succ k ih =>
    refine Eq.trans ?_ (Host.Core.run.eq_2 core s k).symm
    have hs : core.step s = step s := rfl
    rw [run_succ, hs]
    cases step s with
    | next s' => exact ih s'
    | fault r => rfl
    | refused r => rfl

/-- A step with an event listed runs that event (R10). -/
theorem step_event {s : State} {e : Event} {rest : List Event} (h : s.inbox = e :: rest) :
    step s = onEvent e { s with inbox := rest } := by
  simp [step, h]

/-- A step with nothing listed (log 2). -/
theorem step_quiet {s : State} (h : s.inbox = []) : step s = onQuiet s := by
  simp [step, h]

/-- All the assembler can do with a byte (R126): buffer it, or interpret the command it completes. -/
theorem assemble_cases (b : Byte) (s : State) :
    (∃ h : s.cmdIndex.val + 1 < 8, s.cmdIndex.val + 1 < (s.expectedWith b).val ∧
      assemble b s = .next { s.append b with cmdIndex := ⟨s.cmdIndex.val + 1, h⟩ }) ∨
    ((s.expectedWith b).val ≤ s.cmdIndex.val + 1 ∧
      assemble b s = andThen (exec (s.append b).buffered (s.append b)) fun t => .next { t with cmdIndex := 0 }) := by
  by_cases h : s.cmdIndex.val + 1 < (s.expectedWith b).val
  · have := (s.expectedWith b).isLt
    exact .inl ⟨by omega, h, dif_pos h⟩
  · exact .inr ⟨by omega, dif_neg h⟩

end Sys2Proof.Machine
end

