-- ==== Sys2Proof/Laws/Exec.lean ====
section
/-! SUPPORT. What the meanings and the events can do, said once each; later proofs cite these and unfold no step. -/

namespace Sys2Proof.Machine

/-- The closed form of a render request is the request itself (R220). -/
theorem State.armed_eq (s : State) (r : Bool) : s.armed r = if r then s.requestRender else s := by
  cases r
  · simp [State.armed]
  · simp [State.armed, State.requestRender_eq]
    cases s.redrawPending <;> rfl

theorem State.armed_false (s : State) : s.armed false = s := by rw [State.armed_eq]; rfl

/-- The end of a command as one request (R140). -/
theorem State.finishCommand_armed (i : Instr) (s : State) :
    s.finishCommand i = s.armed ((redrawNeeded s.params i && s.displayOn) || renderForced i) := by
  rw [State.armed_eq, State.finishCommand_eq]

/-- Every meaning answers a next state (R250). -/
theorem exec_next (i : Instr) (s : State) : ∃ t, exec i s = .next t := by
  cases i <;> exact ⟨_, rfl⟩

/-- Only a control byte touches the receiver's modes (R103). -/
theorem exec_keeps_modes {i : Instr} {s t : State} (h : exec i s = .next t) (hc : i.byteClass ≠ .control) :
    t.ctrlPending = s.ctrlPending ∧ t.continuous = s.continuous ∧ t.commandMode = s.commandMode := by
  cases i <;> first | exact absurd rfl hc | (injection h with h; subst h; simp)

/-- What no meaning writes: the parameters, the constants, the frame, the assembler and the inbox. -/
theorem exec_keeps {i : Instr} {s t : State} (h : exec i s = .next t) :
    t.params = s.params ∧ t.xOffset = s.xOffset ∧ t.multiplex = s.multiplex ∧ t.frame = s.frame ∧
    t.cmdBuf = s.cmdBuf ∧ t.cmdIndex = s.cmdIndex ∧ t.cmdExpected = s.cmdExpected ∧ t.inbox = s.inbox := by
  cases i <;> (injection h with h; subst h; simp)

/-- The buffer holds a command (R70, R140). -/
theorem buffered_byteClass (s : State) : s.buffered.byteClass = .command := by
  unfold State.buffered instrOf
  split <;> try rfl
  next c _ => cases c <;> rfl

/-- A class that takes no parameter does not read the parameter byte (R76). -/
theorem instrOf_ignores_parameter (p : Params) (op q q' : Byte) (h : opTakesParam p op = false) :
    instrOf p op q = instrOf p op q' := by
  unfold opTakesParam at h
  unfold instrOf
  cases hc : classify p op with
  | named c => simp only [hc] at h ⊢; cases c <;> first | rfl | cases h
  | _ => rfl

/-- All a `Write` can do (R102 to R104, R126): a control byte, a data byte, a buffered command byte, or a command. -/
theorem onWrite_cases (b : Byte) (s : State) :
    (s.byteClass = .control ∧
      onWrite b s = .next ({ s with
        commandMode := !b.getLsbD 6, continuous := !b.getLsbD 7, ctrlPending := false }.emit (.ack true))) ∨
    (s.byteClass = .data ∧ ∃ t, exec (.data b) s = .next t ∧
      onWrite b s = .next (t.endOfForwardedByte.emit (.ack true))) ∨
    (s.byteClass = .command ∧ ∃ h : s.cmdIndex.val + 1 < 8, s.cmdIndex.val + 1 < (s.expectedWith b).val ∧
      onWrite b s =
        .next ({ s.append b with cmdIndex := ⟨s.cmdIndex.val + 1, h⟩ }.endOfForwardedByte.emit (.ack true))) ∨
    (s.byteClass = .command ∧ (s.expectedWith b).val ≤ s.cmdIndex.val + 1 ∧
      ∃ t, exec (s.append b).buffered (s.append b) = .next t ∧
        onWrite b s = .next ({ t with cmdIndex := 0 }.endOfForwardedByte.emit (.ack true))) := by
  unfold onWrite
  cases s.byteClass with
  | control => exact .inl ⟨rfl, rfl⟩
  | data => exact .inr (.inl ⟨rfl, _, rfl, rfl⟩)
  | command =>
    obtain ⟨h1, h2, e⟩ | ⟨h1, e⟩ := assemble_cases b s
    · exact .inr (.inr (.inl ⟨rfl, h1, h2, by simp only [e]; rfl⟩))
    · obtain ⟨u, hu⟩ := exec_next (s.append b).buffered (s.append b)
      exact .inr (.inr (.inr ⟨rfl, h1, u, hu, by simp only [e, hu]; rfl⟩))

/-- A `Write` answers a next state (R101, R250). -/
theorem onWrite_next (b : Byte) (s : State) : ∃ t, onWrite b s = .next t := by
  obtain ⟨_, e⟩ | ⟨_, _, _, e⟩ | ⟨_, _, _, e⟩ | ⟨_, _, _, _, e⟩ := onWrite_cases b s <;> exact ⟨_, e⟩

/-- All a step that goes on can do (R10, R100, R102, R105, R222; log 2). -/
theorem step_cases {s t : State} (h : step s = .next t) :
    (s.inbox = [] ∧ s.redrawPending = true ∧ t = s.fireTimer) ∨
    (s.inbox = [] ∧ s.redrawPending = false ∧ t = s) ∨
    (∃ rest, s.inbox = .connect :: rest ∧ t = { s with inbox := rest, ctrlPending := true }) ∨
    (∃ rest, s.inbox = .read :: rest ∧ t = { s with inbox := rest }.emit (.readByte 0xFF)) ∨
    (∃ rest, s.inbox = .timerFire :: rest ∧ s.redrawPending = true ∧
      t = ({ s with inbox := rest } : State).fireTimer) ∨
    (∃ b rest, s.inbox = .write b :: rest ∧ onWrite b { s with inbox := rest } = .next t) := by
  unfold step at h
  split at h
  · unfold onQuiet at h
    split at h <;> rename_i hp <;> injection h with h
    · exact .inl ⟨‹_›, hp, h.symm⟩
    · exact .inr (.inl ⟨‹_›, by simpa using hp, h.symm⟩)
  · rename_i e rest he
    refine .inr (.inr ?_)
    cases e with
    | connect => injection h with h; exact .inl ⟨_, he, h.symm⟩
    | read => injection h with h; exact .inr (.inl ⟨_, he, h.symm⟩)
    | timerFire =>
      unfold onEvent onTimerFire at h
      simp only at h
      split at h
      · injection h with h; exact .inr (.inr (.inl ⟨_, he, ‹_›, h.symm⟩))
      · cases h
    | write b => exact .inr (.inr (.inr ⟨_, _, he, h⟩))

/-- Steps taken one part after another. -/
theorem run_add (j k : Nat) (s : State) : run (j + k) s = andThen (run j s) (run k) := by
  induction j generalizing s with
  | zero => rw [Nat.zero_add]; rfl
  | succ j ih =>
    rw [Nat.succ_add, run_succ, run_succ]
    cases step s with
    | next t => exact ih t
    | fault f => rfl
    | refused x => rfl

end Sys2Proof.Machine
end

