-- ==== Sys2Proof/Laws/Frame.lean ====
section
/-! SUPPORT. The laws of the frame: what a built frame holds, and that the renderer's indices lie in pixel memory. -/

namespace Sys2Proof.Machine

theorem Frame.cellsFrom_getElem? (f : Nat → Cell32) (n k j : Nat) (h : j < n) :
    (Frame.cellsFrom f n k)[j]? = some (f (k + j)) := by
  induction n generalizing k j with
  | zero => omega
  | succ n ih =>
    cases j with
    | zero => rfl
    | succ j =>
      rw [Frame.cellsFrom, List.getElem?_cons_succ, ih (k + 1) j (by omega)]
      congr 2; omega

/-- Cell `k` of a built frame. -/
theorem Frame.build_getElem? (f : Nat → Cell32) (k : Nat) (h : k < FRAME_CELLS) :
    (Frame.build f)[k]? = some (f k) := by
  have := Frame.cellsFrom_getElem? f FRAME_CELLS 0 k h
  simpa [Frame.build] using this

/-- A cell of a frame that has just been rendered (R223). -/
theorem State.renderPass_cell (s : State) (x y : Nat) (hx : x < W) (hy : y < H) :
    s.renderPass.cell (y * W + x) = s.renderPixel x y := by
  have hk : y * W + x < FRAME_CELLS := by simp only [W, H, FRAME_CELLS] at *; omega
  have e1 : (y * W + x) % W = x := by simp only [W] at *; omega
  have e2 : (y * W + x) / W = y := by simp only [W] at *; omega
  rw [State.cell, State.renderPass, Frame.build_getElem? _ _ hk, e1, e2]
  rfl

/-- `virtual_y` lies in [0, 127] (R226). -/
theorem State.virtualY_lt (s : State) (y : Nat) : s.virtualY y < W := by
  have := Int.emod_lt_of_pos (s.rowsY y) (b := (W : Int)) (by decide)
  have := Int.emod_nonneg (s.rowsY y) (b := (W : Int)) (by decide)
  simp only [State.virtualY, W] at *; omega

/-- The column term lies in [0, 127], whatever `X_OFFSET` is (R226). -/
theorem State.virtualX_lt (s : State) (x : Nat) : s.virtualX x < W := by
  have := Int.emod_lt_of_pos ((x : Int) + s.xOffset) (b := (W : Int)) (by decide)
  have := Int.emod_nonneg ((x : Int) + s.xOffset) (b := (W : Int)) (by decide)
  simp only [State.virtualX, W] at *; omega

/-- `source_index` lies in [0, 2047] (R226): the 11-bit index is exact. -/
theorem State.sourceIndex_lt (s : State) (x y : Nat) : s.virtualY y / 8 * W + s.virtualX x < 2048 := by
  have := s.virtualY_lt y
  have := s.virtualX_lt x
  simp only [W] at *; omega

end Sys2Proof.Machine
end

