-- ==== Sys2Proof/Laws/Memory.lean ====
section
/-! SUPPORT. The laws of pixel memory: read after write, and the canonical form. -/

namespace Sys2Proof.Machine

/-- A read of the index just written gives the byte written. -/
theorem Memory.read_write_same (m : Memory) (k lo : Nat) (v : Byte) (h : Memory.wfFrom lo m = true) :
    Memory.read (Memory.write m k v) k = v := by
  induction m generalizing lo with
  | nil => simp only [Memory.write]; split <;> simp_all [Memory.read]
  | cons c m ih =>
    obtain ⟨a, w⟩ := c
    simp only [Memory.wfFrom, Bool.and_eq_true, decide_eq_true_eq] at h
    have absent : ∀ (m : Memory) (lo : Nat), k < lo → Memory.wfFrom lo m = true → Memory.read m k = Memory.unlisted := by
      intro m
      induction m with
      | nil => intros; rfl
      | cons c m ih =>
        intro lo hk hm
        simp only [Memory.wfFrom, Bool.and_eq_true, decide_eq_true_eq] at hm
        rw [Memory.read, if_neg (by omega)]
        exact ih (c.1 + 1) (by omega) hm.2
    simp only [Memory.write]
    split
    · split
      · rw [Memory.read, if_neg (by omega), absent m (a + 1) (by omega) h.2]; simp_all
      · simp [Memory.read]
    · split
      · split
        · rw [absent m (a + 1) (by omega) h.2]; simp_all
        · simp [Memory.read]
      · rw [Memory.read, if_neg (by omega)]
        exact ih (a + 1) h.2

/-- A read of any other index gives what it gave before. -/
theorem Memory.read_write_other (m : Memory) (k j : Nat) (v : Byte) (hj : j ≠ k) :
    Memory.read (Memory.write m k v) j = Memory.read m j := by
  induction m with
  | nil => simp only [Memory.write]; split <;> simp [Memory.read, Ne.symm hj]
  | cons c m ih =>
    obtain ⟨a, w⟩ := c
    simp only [Memory.write]
    split
    · split <;> simp [Memory.read, Ne.symm hj]
    · split
      · next e => subst e; split <;> simp [Memory.read, Ne.symm hj]
      · simp only [Memory.read, ih]

/-- A write keeps the canonical form from an index on. -/
theorem Memory.wfFrom_write (m : Memory) (k lo : Nat) (v : Byte) (hk : lo ≤ k) (hk' : k < 2048)
    (h : Memory.wfFrom lo m = true) : Memory.wfFrom lo (Memory.write m k v) = true := by
  induction m generalizing lo with
  | nil => simp only [Memory.write]; split <;> simp_all [Memory.wfFrom]
  | cons c m ih =>
    obtain ⟨a, w⟩ := c
    simp only [Memory.wfFrom, Bool.and_eq_true, decide_eq_true_eq] at h
    obtain ⟨⟨⟨hlo, ha⟩, hw⟩, hm⟩ := h
    simp only [Memory.write]
    split
    · split <;> simp_all [Memory.wfFrom]
    · split
      · split
        · have weaken : ∀ (m : Memory) (lo lo' : Nat), lo' ≤ lo → Memory.wfFrom lo m = true →
              Memory.wfFrom lo' m = true := by
            intro m lo lo' hle hm
            cases m with
            | nil => rfl
            | cons c m =>
              simp only [Memory.wfFrom, Bool.and_eq_true, decide_eq_true_eq] at hm ⊢
              exact ⟨⟨⟨by omega, hm.1.1.2⟩, hm.1.2⟩, hm.2⟩
          exact weaken m (a + 1) lo (by omega) hm
        · simp_all [Memory.wfFrom]
      · simp only [Memory.wfFrom, Bool.and_eq_true, decide_eq_true_eq]
        exact ⟨⟨⟨hlo, ha⟩, hw⟩, ih (a + 1) (by omega) hm⟩

/-- A write keeps the canonical form; an 11-bit index is always in range (R51). -/
theorem Memory.wf_write (m : Memory) (a : PixAddr) (v : Byte) (h : Memory.wf m = true) :
    Memory.wf (Memory.write m a.toNat v) = true :=
  Memory.wfFrom_write m a.toNat 0 v (Nat.zero_le _) (by have := a.isLt; omega) h

/-- `MemRead` after `MemWrite` (R52, R53): the byte written there, every other byte as before. -/
theorem State.memRead_memWrite (s : State) (a b : PixAddr) (v : Byte) (h : Memory.wf s.pixmem = true) :
    (s.memWrite a v).memRead b = if b = a then v else s.memRead b := by
  split
  · next e => subst e; exact Memory.read_write_same _ _ 0 v h
  · next ne => exact Memory.read_write_other _ _ _ v fun e => ne (BitVec.eq_of_toNat_eq e)

/-- The index of a page and a column is `page * 128 + column` (R51). -/
theorem pixAddr_toNat (pg : Page) (c : Column) : (pixAddr pg c).toNat = pg.toNat * 128 + c.toNat := by
  have h := c.isLt
  rw [pixAddr, BitVec.toNat_append, Nat.shiftLeft_eq, Nat.mul_comm, ← Nat.two_pow_add_eq_or_of_lt h]

end Sys2Proof.Machine
end

