-- ==== Sys2Proof/Laws/Operands.lean ====
section
/-! SUPPORT. The laws of the operand forms and of the cursors. -/

namespace Sys2Proof.Machine

/-- The page-mode column advance is `(column + 1) mod 128` (R203). -/
theorem nextColumn_eq (c : Column) : nextColumn c = c + 1 := by
  revert c; decide

/-- The mirrored column is `127 - column` (R201). -/
theorem effectiveColumn_true (c : Column) : effectiveColumn true c = 127 - c := by
  revert c; decide

@[simp] theorem effectiveColumn_false (c : Column) : effectiveColumn false c = c := rfl

/-- The two cursor commands keep each other's bits (R166, R167): low nibble. -/
theorem columnLow_eq (c : Column) (n : BitVec 4) : columnLow c n = c.extractLsb' 4 3 ++ n := by
  revert c n; decide

/-- The two cursor commands keep each other's bits (R166, R167): high bits. -/
theorem columnHigh_eq (c : Column) (n : BitVec 3) : columnHigh c n = n ++ c.extractLsb' 0 4 := by
  revert c n; decide

/-- `clock_divider` after SETCLKDIV (R150), as a number: 1 to 16 (R29). -/
theorem clockOf_toNat (p : Byte) : (clockOf p).toNat = 1 + p.toNat % 16 := by
  revert p; decide

/-- The phases after SETPRECHARGE (R151). -/
theorem phase1Of_eq (p : Byte) : phase1Of p = p.extractLsb' 0 4 := by
  revert p; decide

theorem phase2Of_eq (p : Byte) : phase2Of p = p.extractLsb' 4 4 := by
  revert p; decide

/-- All a cursor advance can do (R203, R204). -/
theorem State.advance_eq (s : State) :
    s.advance =
      { s with
        activeColumn :=
          if s.memoryMode = .page ∨ s.activePage = 15 then s.activeColumn + 1 else s.activeColumn
        activePage := if s.memoryMode = .page then s.activePage else s.activePage + 1 } := by
  unfold State.advance State.advancePage State.advanceVertical
  by_cases hm : s.memoryMode = .page
  · simp [hm, nextColumn_eq]
  · by_cases hp : s.activePage = 15#4 <;> simp [hm, hp, nextColumn_eq]

end Sys2Proof.Machine
end

