-- ==== Sys2Proof/Laws/PerInstr.lean ====
section
/-! SUPPORT. Facts about every instruction as syntax, one lemma for each constructor: the length of its encoding. -/

namespace Sys2Proof.Laws.EncodeLength

/-- An instruction's bytes number `1 + ARITY(op)` for a command and 1 otherwise (R70, R72), so they fit the command
buffer (R40). -/
def Statement (i : Instr) : Prop :=
  ∀ p : Params,
    (encode p i).length = (match i.byteClass with
      | .command => 1 + (p.arity (firstByte p i)).val
      | .control | .data => 1)

theorem command (p : Params) (i : Instr) (h : i.byteClass = .command) :
    (encode p i).length = 1 + (p.arity (firstByte p i)).val := by
  have := (p.arity (firstByte p i)).isLt
  simp [encode, h]; omega

theorem ctrl co dc r : Statement (.ctrl co dc r) := fun _ => rfl
theorem data d : Statement (.data d) := fun _ => rfl
theorem setColLo n : Statement (.setColLo n) := fun p => command p _ rfl
theorem setColHi n : Statement (.setColHi n) := fun p => command p _ rfl
theorem pageMode : Statement (.pageMode) := fun p => command p _ rfl
theorem vertMode : Statement (.vertMode) := fun p => command p _ rfl
theorem setContrast q : Statement (.setContrast q) := fun p => command p _ rfl
theorem segRemap0 : Statement (.segRemap0) := fun p => command p _ rfl
theorem segRemap1 : Statement (.segRemap1) := fun p => command p _ rfl
theorem allOnResume : Statement (.allOnResume) := fun p => command p _ rfl
theorem allOnForced : Statement (.allOnForced) := fun p => command p _ rfl
theorem normal : Statement (.normal) := fun p => command p _ rfl
theorem invert : Statement (.invert) := fun p => command p _ rfl
theorem setMux q : Statement (.setMux q) := fun p => command p _ rfl
theorem displayOff : Statement (.displayOff) := fun p => command p _ rfl
theorem displayOn : Statement (.displayOn) := fun p => command p _ rfl
theorem setPage n : Statement (.setPage n) := fun p => command p _ rfl
theorem comScanInc : Statement (.comScanInc) := fun p => command p _ rfl
theorem comScanDec : Statement (.comScanDec) := fun p => command p _ rfl
theorem setDispOffset q : Statement (.setDispOffset q) := fun p => command p _ rfl
theorem setClkDiv q : Statement (.setClkDiv q) := fun p => command p _ rfl
theorem setPrecharge q : Statement (.setPrecharge q) := fun p => command p _ rfl
theorem setComPins q : Statement (.setComPins q) := fun p => command p _ rfl
theorem setVcomDesel q : Statement (.setVcomDesel q) := fun p => command p _ rfl
theorem setStartLine q : Statement (.setStartLine q) := fun p => command p _ rfl
theorem nop : Statement (.nop) := fun p => command p _ rfl
theorem unrecognized op : Statement (.unrecognized op) := fun p => command p _ rfl

end Sys2Proof.Laws.EncodeLength
end

