-- ==== Sys2Proof/Tests/Slice0.lean ====
section
/-! SUPPORT. Tests. The expected results are the spec's: the vectors of 95_test_vectors.md (named by their ids), the
encodings of 30_encoding.md and hand calculation from the rules; none is the model's own answer. Then one witness for
each obligation with hypotheses. -/

open Sys2Proof Sys2Proof.Machine Host

namespace Sys2Proof.Tests

/-! ## Helpers -/

/-- The premises of 95_test_vectors.md: the default tables, and some distinct pixel values. -/
def params0 : Params where
  opcodeMap       := OpcodeMap.sh1107
  arityTable      := ArityTable.sh1107
  c0Class         := .comScanInc
  redrawOnNop     := true
  redrawOnUnknown := false
  renderDelay     := 16667
  pixelLit        := 0xFFFFFFFF
  pixelDark       := 0xFF000000
  sinkByteOrder   := default
  busAddr         := 0x3C

/-- The reset state under the premises. -/
def start : State := State.constructed params0 0 [] (Frame.build fun _ => 0)

/-- The display is on. -/
def startOn : State := { start with displayOn := true }

/-- The receiver forwards command bytes in continuous mode, as after `C 00`. -/
def cmdState (s : State) : State := { s with continuous := true, commandMode := true }

/-- The receiver forwards data bytes in continuous mode, as after `C 40`. -/
def dataState (s : State) : State := { s with continuous := true, commandMode := false }

/-- One field of a result. -/
def field {α : Type} (r : Result) (f : State → α) : Option α :=
  match r with
  | .next t => some (f t)
  | .fault _ => none
  | .refused _ => none

/-- The step at the last byte of a command, from `s` in continuous command mode. -/
def command (s : State) (bytes : List Byte) : Result := step ((cmdState s).withCommand bytes)

/-- The step at a data byte, from `s` in continuous data mode. -/
def dataByte (s : State) (b : Byte) : Result := step { dataState s with inbox := [.write b] }

/-- The step at one event. -/
def event (s : State) (e : Event) : Result := step { s with inbox := [e] }

/-- The number of `ArmTimer` calls a command step adds (its answer counts nothing else). -/
def arms (s : State) : Nat := (s.outbox.filter fun o => decide (o = .armTimer 16667)).length

/-! ## WellFormed: an ill-formed term for each check -/

theorem test_wf_unrecognized_named : wellFormed params0 (.unrecognized 0x81) = false := by decide
theorem test_wf_unrecognized_range : wellFormed params0 (.unrecognized 0x05) = false := by decide
theorem test_wf_unrecognized_page : wellFormed params0 (.unrecognized 0xB3) = false := by decide
theorem test_wf_unrecognized_ok : wellFormed params0 (.unrecognized 0xAD) = true := by decide
theorem test_wf_comScanInc_pageSelect :
    wellFormed { params0 with c0Class := .pageSelect } .comScanInc = false := by decide
theorem test_wf_setColLo_taken : wellFormed { params0 with opcodeMap := [(0x05, .nop)] } (.setColLo 5) = false := by decide
theorem test_wf_setColHi_taken : wellFormed { params0 with opcodeMap := [(0x13, .nop)] } (.setColHi 3) = false := by decide
theorem test_wf_setPage_taken : wellFormed { params0 with opcodeMap := [(0xB7, .nop)] } (.setPage 7) = false := by decide
theorem test_wf_parameter_missing : wellFormed { params0 with arityTable := [] } (.setContrast 1) = false := by decide
theorem test_wf_class_missing : wellFormed { params0 with opcodeMap := [] } .invert = false := by decide
theorem test_wf_first_row_counts :
    wellFormed { params0 with opcodeMap := [(0xA7, .normal), (0xA7, .invert)] } .invert = false := by decide

/-! ## Decode: a word from the spec's encoding for every constructor (30_encoding.md R71, R73, R74; opcode_table.json) -/

theorem test_decode_ctrl : decode params0 .control [0b10000001] = .ok (.ctrl true false 1, []) := by decide
theorem test_decode_ctrl_data : decode params0 .control [0b01111111] = .ok (.ctrl false true 63, []) := by decide
theorem test_decode_data : decode params0 .data [0b00000001] = .ok (.data 1, []) := by decide
theorem test_decode_setColLo : decode params0 .command [0b00001111] = .ok (.setColLo 15, []) := by decide
theorem test_decode_setColHi : decode params0 .command [0b00010111] = .ok (.setColHi 7, []) := by decide
theorem test_decode_0x18 : decode params0 .command [0b00011000] = .ok (.unrecognized 0x18, []) := by decide
theorem test_decode_pageMode : decode params0 .command [0b00100000] = .ok (.pageMode, []) := by decide
theorem test_decode_vertMode : decode params0 .command [0b00100001] = .ok (.vertMode, []) := by decide
theorem test_decode_setContrast : decode params0 .command [0b10000001, 0x10] = .ok (.setContrast 0x10, []) := by decide
theorem test_decode_segRemap0 : decode params0 .command [0b10100000] = .ok (.segRemap0, []) := by decide
theorem test_decode_segRemap1 : decode params0 .command [0b10100001] = .ok (.segRemap1, []) := by decide
theorem test_decode_allOnResume : decode params0 .command [0b10100100] = .ok (.allOnResume, []) := by decide
theorem test_decode_allOnForced : decode params0 .command [0b10100101] = .ok (.allOnForced, []) := by decide
theorem test_decode_normal : decode params0 .command [0b10100110] = .ok (.normal, []) := by decide
theorem test_decode_invert : decode params0 .command [0b10100111] = .ok (.invert, []) := by decide
theorem test_decode_setMux : decode params0 .command [0b10101000, 0x3F] = .ok (.setMux 0x3F, []) := by decide
theorem test_decode_displayOff : decode params0 .command [0b10101110] = .ok (.displayOff, []) := by decide
theorem test_decode_displayOn : decode params0 .command [0b10101111] = .ok (.displayOn, []) := by decide
theorem test_decode_setPage : decode params0 .command [0b10111111] = .ok (.setPage 15, []) := by decide
theorem test_decode_comScanInc : decode params0 .command [0b11000000] = .ok (.comScanInc, []) := by decide
theorem test_decode_c0_pageSelect :
    decode { params0 with c0Class := .pageSelect } .command [0b11000000] = .ok (.setPage 0, []) := by decide
theorem test_decode_comScanDec : decode params0 .command [0b11001000] = .ok (.comScanDec, []) := by decide
theorem test_decode_setDispOffset :
    decode params0 .command [0b11010011, 0x20] = .ok (.setDispOffset 0x20, []) := by decide
theorem test_decode_setClkDiv : decode params0 .command [0b11010101, 0x1F] = .ok (.setClkDiv 0x1F, []) := by decide
theorem test_decode_setPrecharge : decode params0 .command [0b11011001, 0xF1] = .ok (.setPrecharge 0xF1, []) := by decide
theorem test_decode_setComPins : decode params0 .command [0b11011010, 0x12] = .ok (.setComPins 0x12, []) := by decide
theorem test_decode_setVcomDesel : decode params0 .command [0b11011011, 0x35] = .ok (.setVcomDesel 0x35, []) := by decide
theorem test_decode_setStartLine : decode params0 .command [0b11011100, 0xFF] = .ok (.setStartLine 0xFF, []) := by decide
theorem test_decode_nop : decode params0 .command [0b11100011] = .ok (.nop, []) := by decide
theorem test_decode_unrecognized : decode params0 .command [0b11111111] = .ok (.unrecognized 0xFF, []) := by decide
/-- R77: a parameter byte that is itself an opcode value stays a parameter (vector AS-3). -/
theorem test_decode_parameter_is_no_opcode :
    decode params0 .command [0x81, 0xA6, 0xAF] = .ok (.setContrast 0xA6, [0xAF]) := by decide
theorem test_decode_incomplete : decode params0 .command [0x81] = .error (.incomplete 0x81) := by decide
theorem test_decode_noByte : decode params0 .data [] = .error .noByte := by decide
theorem test_decode_noParameter :
    decode { params0 with arityTable := [] } .command [0x81] = .error (.noParameter 0x81) := by decide
/-- R76: a replaced arity is obeyed (decision D4). -/
theorem test_decode_replaced_arity :
    decode { params0 with arityTable := [(0xAD, 2)] } .command [0xAD, 1, 2, 3] = .ok (.unrecognized 0xAD, [3]) := by
  decide
theorem test_encode_setContrast : encode params0 (.setContrast 0x10) = [0x81, 0x10] := by decide
theorem test_encode_ctrl : encode params0 (.ctrl true true 0) = [0xC0] := by decide
theorem test_encode_setColHi : encode params0 (.setColHi 3) = [0x13] := by decide
theorem test_decodeTableWord_first_byte_low : decodeTableWord 16 0x1081 = some (.setContrast 0x10) := by decide
theorem test_decodeTableWord_zero_operand : decodeTableWord 8 0xDC = some (.setStartLine 0) := by decide
/-- R83: `SETCOL #0x35` is `05 13` (vector CU-1). -/
theorem test_setCol_bytes : (setCol 0x35).flatMap (encode params0) = [0x05, 0x13] := by decide

/-! ## Commands, one step each (vectors L1-1, CF, SC, NI, NP, UK, CU) -/

theorem test_setContrast_CF2 : field (command start [0x81, 0xFF]) (·.contrast) = some 0xFF := by decide
theorem test_displayOn_CF3 : field (command start [0xAF]) (fun t => (t.displayOn, arms t)) = some (true, 1) := by decide
theorem test_displayOff_CF4 : field (command start [0xAE]) (fun t => (t.displayOn, arms t)) = some (false, 1) := by decide
theorem test_displayOn_CF5 : field (command startOn [0xAF]) (fun t => (t.displayOn, arms t)) = some (true, 1) := by decide
theorem test_invert_CF6 : field (command start [0xA7]) (fun t => (t.invert, arms t)) = some (true, 0) := by decide
theorem test_invert_CF7 : field (command startOn [0xA7]) (fun t => (t.invert, arms t)) = some (true, 1) := by decide
theorem test_normal_CF8 : field (command { start with invert := true } [0xA6]) (·.invert) = some false := by decide
theorem test_vertMode_CF9 :
    field (command start [0x21]) (fun t => (t.memoryMode, t.activeColumn, t.activePage)) = some (.vertical, 0, 0) := by
  decide
theorem test_pageMode_CF10 :
    field (command { start with memoryMode := .vertical } [0x20]) (·.memoryMode) = some .page := by decide
theorem test_setClkDiv_CF11 : field (command start [0xD5, 0xF0]) (·.clockDivider) = some 1 := by decide
theorem test_setClkDiv_CF12 : field (command start [0xD5, 0x1F]) (·.clockDivider) = some 16 := by decide
theorem test_setPrecharge_CF15 :
    field (command start [0xD9, 0xF1]) (fun t => (t.phase1, t.phase2)) = some (1, 15) := by decide
theorem test_setPrecharge_CF16 :
    field (command start [0xD9, 0x00]) (fun t => (t.phase1, t.phase2)) = some (0, 0) := by decide
theorem test_comScanDec_SC1 : field (command start [0xC8]) (·.reverseRows) = some true := by decide
theorem test_comScanInc_SC2 :
    field (command { start with reverseRows := true, activePage := 5 } [0xC0]) (fun t => (t.reverseRows, t.activePage)) =
      some (false, 5) := by decide
theorem test_setPage_SC3 :
    field (command { start with
        reverseRows := true, activePage := 5, params := { params0 with c0Class := .pageSelect } } [0xC0])
      (fun t => (t.activePage, t.reverseRows)) = some (0, true) := by decide
theorem test_unrecognized_SC4 :
    field (command start [0xC9]) (fun t => (t.outbox, t.reverseRows)) =
      some ([.diag 0xC9, .ack true], false) := by decide
theorem test_segRemap1_SC5 : field (command start [0xA1]) (·.segmentRemap) = some true := by decide
theorem test_segRemap0_SC6 : field (command { start with segmentRemap := true } [0xA0]) (·.segmentRemap) = some false := by
  decide
theorem test_setStartLine_SC8 : field (command start [0xDC, 0xFF]) (·.startLine) = some 255 := by decide
theorem test_setDispOffset_L1 : field (command startOn [0xD3, 0x20]) (fun t => (t.startLine, t.cmdIndex, arms t)) = some (0, 0, 0) := by decide
theorem test_setMux_L1 :
    field (command startOn [0xA8, 0x3E]) (fun t => (t.multiplex, t.cmdIndex, arms t)) = some (63, 0, 0) := by decide
theorem test_setVcomDesel_L1 : field (command startOn [0xDB, 0x35]) (fun t => (t.cmdIndex, arms t)) = some (0, 0) := by
  decide
theorem test_setComPins_L1 : field (command startOn [0xDA, 0x12]) (fun t => (t.cmdIndex, arms t)) = some (0, 0) := by
  decide
theorem test_allOnResume_NI1 : field (command startOn [0xA4]) (fun t => (t.cmdIndex, arms t)) = some (0, 0) := by decide
theorem test_allOnForced_NI2 : field (command startOn [0xA5]) (fun t => (t.invert, t.redrawPending)) = some (false, false) := by
  decide
theorem test_nop_NP1 : field (command startOn [0xE3]) arms = some 1 := by decide
theorem test_nop_NP2 :
    field (command { startOn with params := { params0 with redrawOnNop := false } } [0xE3]) arms = some 0 := by decide
theorem test_unrecognized_UK2 :
    field (command { startOn with params := { params0 with redrawOnUnknown := true } } [0xAD]) (·.outbox) =
      some [.diag 0xAD, .armTimer 16667, .ack true] := by decide
theorem test_setColLo_CU2 : field (command { start with activeColumn := 0x35 } [0x0A]) (·.activeColumn) = some 0x3A := by
  decide
theorem test_setColHi_CU3 : field (command { start with activeColumn := 0x3A } [0x17]) (·.activeColumn) = some 0x7A := by
  decide
theorem test_setColLo_CU7 : field (command startOn [0x05]) arms = some 0 := by decide
theorem test_setPage_CU8_CU9 :
    field (command { startOn with activeColumn := 0x35 } [0xB3]) (fun t => (t.activePage, t.activeColumn, arms t)) =
      some (3, 0x35, 1) := by decide

/-! ## Control and data bytes, one step each (vectors RX, DW) -/

theorem test_ctrl_RX2 :
    field (event { start with ctrlPending := true } (.write 0x80)) (fun t => (t.ctrlPending, t.commandMode, t.continuous)) =
      some (false, true, false) := by decide
theorem test_ctrl_RX7 :
    field (event { start with ctrlPending := true } (.write 0x7F)) (fun t => (t.ctrlPending, t.commandMode, t.continuous)) =
      some (false, false, true) := by decide
theorem test_data_DW2 :
    field (dataByte { start with activeColumn := 127, activePage := 15 } 0x11)
      (fun t => (t.memRead 2047, t.activeColumn, t.activePage)) = some (0x11, 0, 15) := by decide
theorem test_data_DW5 :
    field (dataByte { start with
        segmentRemap := true, memoryMode := .vertical, activePage := 15, activeColumn := 127 } 0x66)
      (fun t => (t.pixmem, t.activePage, t.activeColumn)) = some ([(1920, 0x66)], 0, 0) := by decide

/-! ## Events (vectors RX, AS, TR, EX) -/

theorem test_connect_RX13 :
    field (event (dataState start) .connect) (fun t => (t.ctrlPending, t.continuous, t.commandMode)) =
      some (true, true, false) := by decide
theorem test_read_RX12 : field (event start .read) (·.outbox) = some [.readByte 0xFF] := by decide
theorem test_write_single_shot_RX9 :
    field (event { start with commandMode := true } (.write 0xAF)) (fun t => (t.displayOn, t.ctrlPending)) =
      some (true, true) := by decide
theorem test_opcode_is_buffered_AS2 :
    field (event (cmdState start) (.write 0x81)) (fun t => (t.cmdIndex, t.cmdExpected, t.cmdBuf[0], t.contrast)) =
      some (1, 2, 0x81, 0x7F) := by decide
/-- AS-1's last byte. -/
theorem test_parameter_AS1 :
    field (command start [0x81, 0x10]) (fun t => (t.cmdIndex, t.cmdExpected, t.cmdBuf[0], t.cmdBuf[1])) =
      some (0, 2, 0x81, 0x10) := by decide
/-- R222, D20: `TimerFire` needs a pending render. -/
theorem test_timerFire_refused : event start .timerFire = .refused .timerNotArmed := by rfl
theorem test_timerFire_TR2 :
    field (event { startOn with redrawPending := true } .timerFire) (·.redrawPending) = some false := by decide
/-- R43, R221: the one callback outstanding is the timer's (log 2). -/
theorem test_quiet_fires : field (step { start with redrawPending := true }) (·.redrawPending) = some false := by decide
theorem test_quiet_idles : step start = .next start := by rfl
/-- The next step runs exactly the word's instruction, from reset. -/
theorem test_withFetchWord_setContrast :
    field (step (State.reset.withFetchWord 16 0x1081)) (fun t => (t.contrast, t.cmdIndex, t.inbox)) =
      some (0x10, 0, []) := by decide
theorem test_withFetchWord_zero_operand :
    field (step (State.reset.withFetchWord 8 0xD5)) (fun t => (t.clockDivider, t.cmdBuf[0], t.cmdBuf[1])) =
      some (1, 0xD5, 0) := by decide
theorem test_construct_refuses_128x64 : State.construct 128 64 params0 0 [] (Frame.build fun _ => 0) =
    .refused (.geometry 128 64) := by rfl

/-! ## The renderer (vectors RN), pixel by pixel -/

/-- Lit or not at one coordinate. -/
def lit (s : State) (x y : Nat) : Bool := decide (s.renderPixel x y = 0xFFFFFFFF)

theorem test_render_RN2 : lit { startOn with pixmem := [(1922, 0x80)] } 2 127 = true := by decide
theorem test_render_RN3 : lit { startOn with pixmem := [(1922, 0x80)], reverseRows := true } 2 0 = true := by decide
theorem test_render_RN5 : lit { startOn with pixmem := [(0, 1)], startLine := 1 } 0 127 = true := by decide
theorem test_render_RN7 : lit { startOn with pixmem := [(0, 1)], startLine := 255 } 0 1 = true := by decide
theorem test_render_RN9 :
    lit { startOn with pixmem := [(0, 1)], reverseRows := true, startLine := 200 } 0 55 = true := by decide
theorem test_render_RN10 : lit { startOn with pixmem := [(0, 1)], xOffset := 3 } 125 0 = true := by decide
theorem test_render_RN11 :
    (lit { startOn with pixmem := [(0, 1)], xOffset := -1 } 1 0,
      lit { startOn with pixmem := [(0, 1)], xOffset := -1 } 0 0) = (true, false) := by decide
theorem test_render_RN15 :
    (lit { startOn with pixmem := [(0, 1)], invert := true } 0 0,
      lit { startOn with pixmem := [(0, 1)], invert := true } 127 127) = (false, true) := by decide
theorem test_render_RN16 : lit { start with invert := true } 5 5 = false := by decide
theorem test_render_RN18 :
    (lit { startOn with pixmem := [(127, 0xFF)], segmentRemap := true } 127 7,
      lit { startOn with pixmem := [(127, 0xFF)], segmentRemap := true } 0 0) = (true, false) := by decide
/-- R229: the byte offset of RN-2's cell. -/
theorem test_sinkOffset_RN2 : sinkOffset 2 127 = 65032 := by decide

/-! ## Witnesses: states and operands that meet the hypotheses of each obligation, clause by clause -/

/-- `State.Inv` holds at the start state, and a change of the fields it does not name keeps it. -/
theorem start_inv : start.Inv := ⟨rfl, by decide, fun h => absurd rfl h, by decide, by decide, rfl⟩

/-- With SETCONTRAST half sent: the parser holds its opcode. -/
def halfSent : State :=
  { cmdState start with cmdBuf := start.cmdBuf.set 0 0x81, cmdIndex := 1, cmdExpected := 2 }

theorem halfSent_inv : halfSent.Inv := ⟨rfl, by decide, fun _ => by decide, by decide, by decide, rfl⟩

/-- With SETSTARTLINE half sent. -/
def halfSentLine : State :=
  { cmdState start with cmdBuf := start.cmdBuf.set 0 0xDC, cmdIndex := 1, cmdExpected := 2 }

theorem halfSentLine_inv : halfSentLine.Inv := ⟨rfl, by decide, fun _ => by decide, by decide, by decide, rfl⟩

theorem test_witness_ConstructionRefusesOtherSizes :
    ((127 : Nat) ≠ 128 ∨ (128 : Nat) ≠ 128) ∧ ((128 : Nat) ≠ 128 ∨ (129 : Nat) ≠ 128) := by decide

theorem test_witness_ConnectWritesOnlyCtrlPending : ∃ (s : State) (rest : List Event), s.inbox = .connect :: rest :=
  ⟨{ start with inbox := [.connect] }, [], rfl⟩

theorem test_witness_ReadAnswersPlaceholder : ∃ (s : State) (rest : List Event), s.inbox = .read :: rest :=
  ⟨{ start with inbox := [.read] }, [], rfl⟩

theorem test_witness_EveryWriteAcknowledged :
    ∃ (s : State) (b : Byte) (rest : List Event), s.inbox = .write b :: rest :=
  ⟨{ start with inbox := [.write 0xFF] }, 0xFF, [], rfl⟩

theorem test_witness_ControlByteSetsModes :
    ∃ (s : State) (b : Byte) (rest : List Event), s.inbox = .write b :: rest ∧ s.ctrlPending = true :=
  ⟨{ start with inbox := [.write 0xC0], ctrlPending := true }, 0xC0, [], rfl, rfl⟩

theorem test_witness_ReceiverModeTable :
    (∃ (s : State) (b : Byte) (rest : List Event), s.inbox = .write b :: rest ∧ s.ctrlPending = true) ∧
    (∃ (s : State) (b : Byte) (rest : List Event), s.inbox = .write b :: rest ∧ s.ctrlPending = false) :=
  ⟨⟨{ start with inbox := [.write 0x40], ctrlPending := true }, 0x40, [], rfl, rfl⟩,
   ⟨{ start with inbox := [.write 0xFF] }, 0xFF, [], rfl, rfl⟩⟩

theorem test_witness_SingleShotByteNeedsControl :
    ∃ (s : State) (op b : Byte) (rest : List Event), s.inbox = .write op :: .write b :: rest ∧
      s.ctrlPending = false ∧ s.commandMode = true ∧ s.continuous = false :=
  ⟨{ start with inbox := [.write 0x81, .write 0x10], commandMode := true }, 0x81, 0x10, [], rfl, rfl, rfl, rfl⟩

theorem test_witness_StepRunsDecodedInstruction :
    (∃ (s : State) (b : Byte) (rest : List Event) (i : Instr), s.Inv ∧ s.inbox = .write b :: rest ∧
      s.byteClass = .control ∧ decode s.params s.byteClass (s.pendingBytes b) = .ok (i, [])) ∧
    (∃ (s : State) (b : Byte) (rest : List Event) (i : Instr), s.Inv ∧ s.inbox = .write b :: rest ∧
      s.byteClass = .data ∧ decode s.params s.byteClass (s.pendingBytes b) = .ok (i, [])) ∧
    (∃ (s : State) (b : Byte) (rest : List Event) (i : Instr), s.Inv ∧ s.inbox = .write b :: rest ∧
      s.byteClass = .command ∧ decode s.params s.byteClass (s.pendingBytes b) = .ok (i, [])) :=
  ⟨⟨{ start with inbox := [.write 0x40], ctrlPending := true }, 0x40, [], .ctrl false true 0,
      ⟨rfl, by decide, fun h => absurd rfl h, by decide, by decide, rfl⟩, rfl, rfl, by decide⟩,
   ⟨{ start with inbox := [.write 0x40] }, 0x40, [], .data 0x40,
      ⟨rfl, by decide, fun h => absurd rfl h, by decide, by decide, rfl⟩, rfl, rfl, by decide⟩,
   ⟨{ halfSent with inbox := [.write 0x40] }, 0x40, [], .setContrast 0x40,
      ⟨rfl, by decide, fun _ => by decide, by decide, by decide, rfl⟩, rfl, rfl, by decide⟩⟩

theorem test_witness_IncompleteCommandOnlyBuffers :
    ∃ (s : State) (b : Byte) (rest : List Event), s.inbox = .write b :: rest ∧ s.byteClass = .command ∧
      s.cmdIndex.val + 1 < (s.expectedWith b).val :=
  ⟨{ cmdState start with inbox := [.write 0x81] }, 0x81, [], rfl, rfl, by decide⟩

theorem test_witness_OnlyCommandBytesTouchTheCommand :
    ∃ s t : State, step s = .next t ∧ ∀ b rest, s.inbox = .write b :: rest → s.byteClass ≠ .command :=
  ⟨{ halfSent with commandMode := false, inbox := [.write 0x77] }, _, rfl, fun _ _ _ h => nomatch h⟩

theorem test_witness_CommandBytesRunTheCommand :
    ∃ (s : State) (i : Instr) (rest : List Event), wellFormed s.params i = true ∧ i.byteClass = .command ∧
      s.commandReady ∧ s.inbox = writes (encode s.params i) ++ rest ∧ (encode s.params i).length = 2 :=
  ⟨{ cmdState start with inbox := [.write 0xDC, .write 0x20, .read] }, .setStartLine 0x20, [.read],
    by decide, rfl, ⟨rfl, rfl, rfl, rfl⟩, by decide, by decide⟩

theorem test_witness_NopByteResynchronises :
    (∃ (s : State) (rest : List Event), s.Inv ∧ s.params.standardTables ∧ s.inbox = .write 0xE3 :: rest ∧
      s.ctrlPending = false ∧ s.commandMode = true ∧ s.cmdIndex = 1) ∧
    (∃ (s : State) (rest : List Event), s.Inv ∧ s.params.standardTables ∧ s.inbox = .write 0xE3 :: rest ∧
      s.ctrlPending = false ∧ s.commandMode = true ∧ s.cmdIndex = 0) :=
  ⟨⟨{ halfSentLine with inbox := [.write 0xE3] }, [],
      ⟨rfl, by decide, fun _ => by decide, by decide, by decide, rfl⟩, ⟨rfl, rfl⟩, rfl, rfl, rfl, rfl⟩,
   ⟨{ cmdState start with inbox := [.write 0xE3] }, [],
      ⟨rfl, by decide, fun h => absurd rfl h, by decide, by decide, rfl⟩, ⟨rfl, rfl⟩, rfl, rfl, rfl, rfl⟩⟩

/-- DecodesSampleWords, UnrecognizedBytesAreTheListed, IllFormedInstructions and ByteC0FollowsItsParameter. -/
theorem test_witness_standard_tables :
    (∃ p : Params, p.standardTables ∧ p.c0Class = .comScanInc) ∧ ∃ p : Params, p.standardTables ∧ p.c0Class = .pageSelect :=
  ⟨⟨params0, ⟨rfl, rfl⟩, rfl⟩, ⟨{ params0 with c0Class := .pageSelect }, ⟨rfl, rfl⟩, rfl⟩⟩

theorem test_witness_DecodeOfEncode :
    wellFormed params0 (.setPrecharge 0xF1) = true ∧ wellFormed params0 (.unrecognized 0xAD) = true ∧
    wellFormed params0 (.setPage 0) = true ∧ wellFormed params0 (.setColHi 7) = true := by decide

theorem test_witness_EncodeOfDecode :
    params0.standardTables ∧
    ¬(ByteClass.command = .command ∧ params0.c0Class = .pageSelect ∧ [(0xC0 : Byte), 1].head? = some 0xC0) ∧
    decode params0 .command [0xC0, 1] = .ok (.comScanInc, [1]) := ⟨⟨rfl, rfl⟩, by decide, by decide⟩

theorem test_witness_DisplayCommandsAlwaysRequest :
    (∃ (s : State) (i : Instr), (i = .displayOff ∨ i = .displayOn) ∧ s.redrawPending = true) ∧
    (∃ (s : State) (i : Instr), (i = .displayOff ∨ i = .displayOn) ∧ s.redrawPending = false) :=
  ⟨⟨{ start with redrawPending := true }, .displayOff, .inl rfl, rfl⟩, ⟨start, .displayOn, .inr rfl, rfl⟩⟩

theorem test_witness_NotImplementedCommandsOnTheBus :
    ∃ (s : State) (i : Instr) (rest : List Event), notImplemented i = true ∧ wellFormed s.params i = true ∧
      s.commandReady ∧ s.inbox = writes (encode s.params i) ++ rest :=
  ⟨{ cmdState startOn with inbox := [.write 0xA8, .write 0x3F] }, .setMux 0x3F, [], rfl, by decide,
    ⟨rfl, rfl, rfl, rfl⟩, by decide⟩

theorem test_witness_DataByteResults :
    (∃ (s : State) (col : Column), col = (if s.segmentRemap then 127 - s.activeColumn else s.activeColumn) ∧
      s.memoryMode = .page) ∧
    (∃ (s : State) (col : Column), col = (if s.segmentRemap then 127 - s.activeColumn else s.activeColumn) ∧
      s.memoryMode = .vertical ∧ s.activePage ≠ 15) ∧
    (∃ (s : State) (col : Column), col = (if s.segmentRemap then 127 - s.activeColumn else s.activeColumn) ∧
      s.memoryMode = .vertical ∧ s.activePage = 15) :=
  ⟨⟨{ start with segmentRemap := true }, 127, rfl, rfl⟩,
   ⟨{ start with memoryMode := .vertical, activePage := 14 }, 0, rfl, rfl, by decide⟩,
   ⟨{ start with memoryMode := .vertical, activePage := 15, activeColumn := 127 }, 127, rfl, rfl, rfl⟩⟩

theorem test_witness_DataByteStoresOneByte : ∃ s : State, Memory.wf s.pixmem = true ∧ s.targetAddr = 2047 :=
  ⟨{ start with pixmem := [(2047, 0x0F)], activePage := 15, activeColumn := 127 }, by decide, by decide⟩

theorem test_witness_PageModeAdvance : ∃ s : State, s.memoryMode = .page ∧ s.activeColumn = 127 :=
  ⟨{ start with activeColumn := 127 }, rfl, rfl⟩

theorem test_witness_SixteenVerticalWritesFillAColumn :
    ∃ (s : State) (ds : List Byte) (rest : List Event), Memory.wf s.pixmem = true ∧ ds.length = 16 ∧ s.dataReady ∧
      s.memoryMode = .vertical ∧ s.activePage = 0 ∧ s.inbox = writes ds ++ rest :=
  ⟨{ dataState start with memoryMode := .vertical, inbox := writes (List.replicate 16 0x33) },
    List.replicate 16 0x33, [], rfl, rfl, ⟨rfl, rfl, rfl⟩, rfl, rfl, (List.append_nil _).symm⟩

theorem test_witness_EveryDataByteRequestsARender :
    (∃ s : State, s.redrawPending = true) ∧ (∃ s : State, s.redrawPending = false) ∧
    ∃ (s : State) (x y : Nat), s.displayOn = false ∧ x < 128 ∧ y < 128 :=
  ⟨⟨{ start with redrawPending := true }, rfl⟩, ⟨start, rfl⟩, ⟨start, 127, 127, rfl, by decide, by decide⟩⟩

theorem test_witness_DisplayOffRendersDark : ∃ (s : State) (x y : Nat), s.displayOn = false ∧ x < 128 ∧ y < 128 :=
  ⟨{ start with invert := true }, 0, 127, rfl, by decide, by decide⟩

theorem test_witness_TwoWritesOneRender :
    ∃ (s : State) (d e : Byte) (rest : List Event), s.dataReady ∧ s.redrawPending = false ∧
      s.inbox = .write d :: .write e :: .timerFire :: rest :=
  ⟨{ dataState startOn with inbox := [.write 1, .write 2, .timerFire] }, 1, 2, [], ⟨rfl, rfl, rfl⟩, rfl, rfl⟩

theorem test_witness_RenderRequestsCoalesce :
    (∃ s : State, s.redrawPending = false) ∧ ∃ s : State, s.redrawPending = true :=
  ⟨⟨start, rfl⟩, ⟨{ start with redrawPending := true }, rfl⟩⟩

theorem test_witness_TimerFireRendersTheFrame :
    ∃ (s : State) (rest : List Event) (x y : Nat), s.inbox = .timerFire :: rest ∧ s.redrawPending = true ∧
      x < 128 ∧ y < 128 :=
  ⟨{ startOn with redrawPending := true, inbox := [.timerFire] }, [], 0, 127, rfl, rfl, by decide, by decide⟩

theorem test_witness_TimerFireNeedsARequest :
    ∃ (s : State) (rest : List Event), s.inbox = .timerFire :: rest ∧ s.redrawPending = false :=
  ⟨{ start with inbox := [.timerFire] }, [], rfl, rfl⟩

theorem test_witness_IdentityTransform :
    (∃ (s : State) (x y : Nat), x < 128 ∧ y < 128 ∧ s.startLine = 0 ∧ s.invert = false ∧ s.displayOn = true ∧
      s.xOffset % 128 = 0 ∧ s.reverseRows = false) ∧
    (∃ (s : State) (x y : Nat), x < 128 ∧ y < 128 ∧ s.startLine = 0 ∧ s.invert = false ∧ s.displayOn = true ∧
      s.xOffset % 128 = 0 ∧ s.reverseRows = true) :=
  ⟨⟨{ startOn with xOffset := -128 }, 127, 127, by decide, by decide, rfl, rfl, rfl, by decide, rfl⟩,
   ⟨{ startOn with reverseRows := true }, 0, 127, by decide, by decide, rfl, rfl, rfl, by decide, rfl⟩⟩

theorem test_witness_InvertComplementsEveryPixel : ∃ s : State, s.params.binary ∧ s.displayOn = true :=
  ⟨startOn, by decide, rfl⟩

theorem test_witness_InvertThenNormalRestoresTheFrame : ∃ s : State, s.invert = false ∧ s.displayOn = true :=
  ⟨startOn, rfl, rfl⟩

theorem test_witness_SegmentRemapMovesNothingStored :
    (∃ s t : State, exec .segRemap0 s = .next t) ∧ ∃ s t : State, exec .segRemap1 s = .next t :=
  ⟨⟨start, _, rfl⟩, ⟨start, _, rfl⟩⟩

theorem test_witness_SinkBytesDetermineTheFrame :
    (∃ x y k : Nat, x < 128 ∧ y < 128 ∧ k < 4) ∧
    ∃ s t : State, s.contrast ≠ t.contrast ∧ s.params.sinkByteOrder = t.params.sinkByteOrder ∧
      ∀ off < 65536, s.sinkByte off = t.sinkByte off :=
  ⟨⟨127, 127, 3, by decide, by decide, by decide⟩, ⟨start, { start with contrast := 0 }, by decide, rfl, fun _ _ => rfl⟩⟩

theorem test_witness_ArmedRenderEventuallyFires :
    ∃ s : State, s.redrawPending = true ∧ ∀ e ∈ s.inbox, e.isBus = true :=
  ⟨{ start with redrawPending := true, inbox := [.connect, .write 0, .read] }, rfl, by decide⟩

theorem test_witness_EveryByteSequenceAccepted : ∃ s : State, ∀ e ∈ s.inbox, e.isBus = true :=
  ⟨{ start with inbox := [.connect, .write 0xFF, .read] }, by decide⟩

/-- OnlyTheNamedWritersChangeARegister: a change of each kind happens. -/
theorem test_witness_OnlyTheNamedWritersChangeARegister :
    field (exec (.setContrast 0) start) (·.contrast) ≠ some start.contrast ∧
    field (exec .invert start) (·.invert) ≠ some start.invert ∧
    field (exec .comScanDec start) (·.reverseRows) ≠ some start.reverseRows ∧
    field (exec .segRemap1 start) (·.segmentRemap) ≠ some start.segmentRemap ∧
    field (exec .displayOn start) (·.displayOn) ≠ some start.displayOn ∧
    field (exec .vertMode start) (·.memoryMode) ≠ some start.memoryMode ∧
    field (exec (.setClkDiv 1) start) (·.clockDivider) ≠ some start.clockDivider ∧
    field (exec (.setPrecharge 1) start) (·.phase1) ≠ some start.phase1 ∧
    field (exec (.setStartLine 1) start) (·.startLine) ≠ some start.startLine ∧
    field (exec (.setColLo 1) start) (·.activeColumn) ≠ some start.activeColumn ∧
    field (exec (.setPage 1) start) (·.activePage) ≠ some start.activePage ∧
    field (exec (.data 1) start) (·.pixmem) ≠ some start.pixmem ∧
    field (exec (.ctrl false false 0) start) (·.commandMode) ≠ some start.commandMode ∧
    field (exec .displayOff start) (·.redrawPending) ≠ some start.redrawPending := by decide

theorem test_witness_ConstantsAreNeverWritten : ∃ s t : State, step s = .next t ∧ s.inbox = [.write 0xA8] :=
  ⟨{ cmdState start with inbox := [.write 0xA8] }, _, rfl, rfl⟩

theorem test_witness_OnlyDisplayOnTurnsTheDisplayOn :
    ∃ s t : State, step s = .next t ∧ s.displayOn = false ∧ t.displayOn = true :=
  ⟨{ cmdState start with inbox := [.write 0xAF] }, _, rfl, rfl, rfl⟩

theorem test_witness_StoredOnlyRegistersAffectNothing :
    (∃ s t s' : State, s.sameButStored t ∧ s.contrast ≠ t.contrast ∧ step s = .next s') ∧
    ∃ (s t : State) (x : Refusal), s.sameButStored t ∧ s.phase1 ≠ t.phase1 ∧ step s = .refused x :=
  ⟨⟨startOn, { startOn with contrast := 0, clockDivider := 16, phase1 := 0, phase2 := 0 }, startOn,
      ⟨rfl, rfl, rfl, rfl, rfl, rfl, rfl, rfl, rfl, rfl, rfl, rfl, rfl, rfl, rfl, rfl, rfl, rfl, rfl, rfl, rfl⟩,
      by decide, rfl⟩,
   ⟨{ start with inbox := [.timerFire] }, { start with inbox := [.timerFire], phase1 := 0 }, .timerNotArmed,
      ⟨rfl, rfl, rfl, rfl, rfl, rfl, rfl, rfl, rfl, rfl, rfl, rfl, rfl, rfl, rfl, rfl, rfl, rfl, rfl, rfl, rfl⟩,
      by decide, rfl⟩⟩

theorem test_witness_GotoSetsTheCursors :
    ∃ (s : State) (pg : Page) (c : Column) (rest : List Event), s.params.standardTables ∧ s.commandReady ∧
      s.inbox = (goto pg c).flatMap (instrWrites s.params) ++ rest :=
  ⟨{ cmdState start with inbox := [.write 0xBF, .write 0x0F, .write 0x17] }, 15, 127, [], ⟨rfl, rfl⟩,
    ⟨rfl, rfl, rfl, rfl⟩, by decide⟩

theorem test_witness_InvariantAtReset : Memory.wf [(0, 1), (2047, 0xFF)] = true := by decide

theorem test_witness_StepKeepsInvariant :
    (∃ s t : State, s.Inv ∧ step s = .next t ∧ s.inbox = [.write 0xFF]) ∧ ∃ s t : State, s.Inv ∧ step s = .next t :=
  ⟨⟨{ halfSentLine with inbox := [.write 0xFF] }, _,
      ⟨rfl, by decide, fun _ => by decide, by decide, by decide, rfl⟩, rfl, rfl⟩, ⟨start, _, start_inv, rfl⟩⟩

/-- A fresh frame with no render pending: every cell is dark and the display is off. -/
theorem dark_is_fresh : State.FrameFresh { start with frame := Frame.build fun _ => 0xFF000000 } := by
  intro _ x y hx hy
  have hk : y * 128 + x < FRAME_CELLS := by simp only [FRAME_CELLS]; omega
  rw [State.cell, Frame.build_getElem? _ _ hk]
  rfl

theorem test_witness_FrameInvariant :
    (∃ s t : State, s.FrameFresh ∧ s.redrawPending = false ∧ step s = .next t) ∧
    (∃ s t : State, s.FrameFresh ∧ s.redrawPending = true ∧ step s = .next t) ∧
    ∃ (s t : State) (rest : List Event), s.inbox = .timerFire :: rest ∧ step s = .next t :=
  ⟨⟨{ start with frame := Frame.build fun _ => 0xFF000000 }, _, dark_is_fresh, rfl, rfl⟩,
   ⟨{ startOn with redrawPending := true }, _, fun h => absurd h (by decide), rfl, rfl⟩,
   ⟨{ startOn with redrawPending := true, inbox := [.timerFire] }, _, [], rfl, rfl⟩⟩

end Sys2Proof.Tests
end

section
/-! PROOF. The statements of 00_scope.md: what construction refuses (R6, R273) and what no step writes (R5, R30, R33). -/

namespace Sys2Proof.Machine

/-- A construction of any size but `W` by `H` is refused by the size's name (R6). -/
theorem State.construct_refused {w h : Nat} (hne : w ≠ W ∨ h ≠ H) (p : Params) (x : Int) (m : Memory) (f : Frame) :
    State.construct w h p x m f = .refused (.geometry w h) :=
  if_neg (not_and_or.mpr hne)

/-- Settles O2: the size test of the construction fails. -/
theorem constructionRefusesOtherSizes : Obligations.ConstructionRefusesOtherSizes := by
  intro w h p x m f hne
  exact State.construct_refused hne p x m f

/-- What a device holds for its whole life is the same in two states: the parameters of R5, `x_offset` (R33) and
`multiplex` (R30). -/
def State.sameConstants (s t : State) : Prop :=
  t.params = s.params ∧ t.xOffset = s.xOffset ∧ t.multiplex = s.multiplex

/-- No meaning writes a constant. -/
theorem exec_sameConstants {i : Instr} {s t : State} (h : exec i s = .next t) : s.sameConstants t := by
  obtain ⟨hp, hx, hm, -⟩ := exec_keeps h
  exact ⟨hp, hx, hm⟩

/-- No `Write` writes a constant, whatever the kind of its byte (R102). -/
theorem onWrite_sameConstants {b : Byte} {s t : State} (h : onWrite b s = .next t) : s.sameConstants t := by
  obtain ⟨-, e⟩ | ⟨-, u, hu, e⟩ | ⟨-, _, -, e⟩ | ⟨-, -, u, hu, e⟩ := onWrite_cases b s <;>
    obtain rfl := Host.Outcome.next.inj (e.symm.trans h)
  case inl => simp [State.sameConstants]
  case inr.inl => simpa [State.sameConstants] using exec_sameConstants hu
  case inr.inr.inl => simp [State.sameConstants]
  case inr.inr.inr => simpa [State.sameConstants] using exec_sameConstants hu

/-- No step that goes on writes a constant: of the events only a `Write` runs an instruction (R10). -/
theorem step_sameConstants {s t : State} (h : step s = .next t) : s.sameConstants t := by
  obtain ⟨-, -, rfl⟩ | ⟨-, -, rfl⟩ | ⟨rest, -, rfl⟩ | ⟨rest, -, rfl⟩ | ⟨rest, -, -, rfl⟩ | ⟨b, rest, -, hw⟩ :=
    step_cases h
  case inr.inr.inr.inr.inr =>
    have hc := onWrite_sameConstants hw
    exact hc
  all_goals exact ⟨rfl, rfl, rfl⟩

/-- Settles O49, by the cases of a step and, for a `Write`, of its byte's kind. -/
theorem constantsAreNeverWritten : Obligations.ConstantsAreNeverWritten := by
  intro s t h
  exact step_sameConstants h

end Sys2Proof.Machine
end

section
/-! PROOF. The statements of 10_state.md: construction (R45), who writes each register (R22), the invariant (R22, R40),
the stored-only registers (R23, R29 to R31) and the sink's bytes (R44, R229). -/

namespace Sys2Proof.Machine

/-! ### Construction (R45, R270) -/

/-- A 128 by 128 device is built (R6). -/
theorem State.construct_next (p : Params) (x : Int) (m : Memory) (f : Frame) :
    State.construct W H p x m f = .next (State.constructed p x m f) :=
  if_pos ⟨rfl, rfl⟩

/-- The command buffer is clear after construction (R45). -/
theorem State.constructed_cmdBuf (p : Params) (x : Int) (m : Memory) (f : Frame) (k : Nat) (h : k < 8) :
    (State.constructed p x m f).cmdBuf[k] = 0 :=
  Vector.getElem_replicate h

/-- Settles O1: the state built is `State.constructed`, field by field. -/
theorem constructionValues : Obligations.ConstructionValues := by
  intro p x m f
  have hbuf := State.constructed_cmdBuf p x m f
  exact ⟨_, State.construct_next p x m f, rfl, rfl, rfl, rfl, rfl, rfl, rfl, rfl, rfl, rfl, rfl, rfl, rfl, rfl, rfl,
    rfl, rfl, rfl, rfl, hbuf, rfl, rfl, rfl, rfl, rfl, rfl⟩

/-- Construction with canonical pixel memory meets the invariant: no command is in progress (R45). -/
theorem State.constructed_inv (p : Params) (x : Int) {m : Memory} (f : Frame) (hm : Memory.wf m = true) :
    (State.constructed p x m f).Inv where
  memory   := hm
  parser   := Nat.zero_lt_one
  expected := fun hidx => absurd rfl hidx
  clockLow := Nat.le_refl 1
  clockTop := Nat.le_add_left 1 15
  mux      := rfl

/-- Settles O53: `State.reset` is the construction with empty pixel memory. -/
theorem invariantAtReset : Obligations.InvariantAtReset :=
  ⟨fun p x _ f hm => State.constructed_inv p x f hm, State.constructed_inv _ _ _ rfl⟩

/-! ### The writers of each register (R22) -/

section Writers
variable {i : Instr} {s t : State}

theorem exec_contrast_writer (h : exec i s = .next t) (hne : t.contrast ≠ s.contrast) :
    ∃ p, i = .setContrast p := by
  cases i
  case setContrast p => exact ⟨p, rfl⟩
  all_goals exact absurd (by injection h with h; subst h; simp) hne

theorem exec_invert_writer (h : exec i s = .next t) (hne : t.invert ≠ s.invert) :
    i = .normal ∨ i = .invert := by
  cases i
  case normal => exact .inl rfl
  case invert => exact .inr rfl
  all_goals exact absurd (by injection h with h; subst h; simp) hne

theorem exec_reverseRows_writer (h : exec i s = .next t) (hne : t.reverseRows ≠ s.reverseRows) :
    i = .comScanInc ∨ i = .comScanDec := by
  cases i
  case comScanInc => exact .inl rfl
  case comScanDec => exact .inr rfl
  all_goals exact absurd (by injection h with h; subst h; simp) hne

theorem exec_segmentRemap_writer (h : exec i s = .next t) (hne : t.segmentRemap ≠ s.segmentRemap) :
    i = .segRemap0 ∨ i = .segRemap1 := by
  cases i
  case segRemap0 => exact .inl rfl
  case segRemap1 => exact .inr rfl
  all_goals exact absurd (by injection h with h; subst h; simp) hne

theorem exec_displayOn_writer (h : exec i s = .next t) (hne : t.displayOn ≠ s.displayOn) :
    i = .displayOff ∨ i = .displayOn := by
  cases i
  case displayOff => exact .inl rfl
  case displayOn => exact .inr rfl
  all_goals exact absurd (by injection h with h; subst h; simp) hne

theorem exec_memoryMode_writer (h : exec i s = .next t) (hne : t.memoryMode ≠ s.memoryMode) :
    i = .pageMode ∨ i = .vertMode := by
  cases i
  case pageMode => exact .inl rfl
  case vertMode => exact .inr rfl
  all_goals exact absurd (by injection h with h; subst h; simp) hne

theorem exec_clockDivider_writer (h : exec i s = .next t) (hne : t.clockDivider ≠ s.clockDivider) :
    ∃ p, i = .setClkDiv p := by
  cases i
  case setClkDiv p => exact ⟨p, rfl⟩
  all_goals exact absurd (by injection h with h; subst h; simp) hne

theorem exec_phase_writer (h : exec i s = .next t) (hne : t.phase1 ≠ s.phase1 ∨ t.phase2 ≠ s.phase2) :
    ∃ p, i = .setPrecharge p := by
  cases i
  case setPrecharge p => exact ⟨p, rfl⟩
  all_goals exact absurd (by injection h with h; subst h; simp) (not_and_or.mpr hne)

theorem exec_startLine_writer (h : exec i s = .next t) (hne : t.startLine ≠ s.startLine) :
    ∃ p, i = .setStartLine p := by
  cases i
  case setStartLine p => exact ⟨p, rfl⟩
  all_goals exact absurd (by injection h with h; subst h; simp) hne

theorem exec_activeColumn_writer (h : exec i s = .next t) (hne : t.activeColumn ≠ s.activeColumn) :
    (∃ n, i = .setColLo n) ∨ (∃ n, i = .setColHi n) ∨ ∃ d, i = .data d := by
  cases i
  case setColLo n => exact .inl ⟨n, rfl⟩
  case setColHi n => exact .inr (.inl ⟨n, rfl⟩)
  case data d => exact .inr (.inr ⟨d, rfl⟩)
  all_goals exact absurd (by injection h with h; subst h; simp) hne

/-- In page mode a data byte leaves the page alone (R203). -/
theorem State.advance_activePage_of_page {u : State} (hm : u.memoryMode = .page) :
    u.advance.activePage = u.activePage := by
  rw [State.advance_eq]
  exact if_pos hm

theorem exec_activePage_writer (h : exec i s = .next t) (hne : t.activePage ≠ s.activePage) :
    (∃ n, i = .setPage n) ∨ ((∃ d, i = .data d) ∧ s.memoryMode = .vertical) := by
  cases i
  case setPage n => exact .inl ⟨n, rfl⟩
  case data d =>
    cases hm : s.memoryMode with
    | vertical => exact .inr ⟨⟨d, rfl⟩, rfl⟩
    | page =>
      injection h with h
      subst h
      exact absurd (by simp [State.advance_activePage_of_page, hm]) hne
  all_goals exact absurd (by injection h with h; subst h; simp) hne

theorem exec_pixmem_writer (h : exec i s = .next t) (hne : t.pixmem ≠ s.pixmem) : ∃ d, i = .data d := by
  cases i
  case data d => exact ⟨d, rfl⟩
  all_goals exact absurd (by injection h with h; subst h; simp) hne

theorem eq_ctrl_of_byteClass (hc : i.byteClass = .control) : ∃ co dc r, i = .ctrl co dc r := by
  cases i
  case ctrl co dc r => exact ⟨co, dc, r, rfl⟩
  all_goals cases hc

theorem exec_modes_writer (h : exec i s = .next t)
    (hne : t.ctrlPending ≠ s.ctrlPending ∨ t.continuous ≠ s.continuous ∨ t.commandMode ≠ s.commandMode) :
    ∃ co dc r, i = .ctrl co dc r := by
  by_cases hc : i.byteClass = .control
  · exact eq_ctrl_of_byteClass hc
  · obtain ⟨hp, hco, hcm⟩ := exec_keeps_modes h hc
    exact (hne.elim (· hp) (·.elim (· hco) (· hcm))).elim

/-- Every instruction but a data byte requests a render by its two flags alone (R140, R141). The display flag before the
instruction serves as well as the one after it, since the two commands that write it force the request. -/
theorem exec_redrawPending (h : exec i s = .next t) (hd : ∀ d, i ≠ .data d) :
    t.redrawPending = (s.redrawPending || (redrawNeeded s.params i && s.displayOn) || renderForced i) := by
  cases i
  case data d => exact absurd rfl (hd d)
  case ctrl | displayOff | displayOn => injection h with h; subst h; simp [redrawNeeded, renderForced]
  all_goals injection h with h; subst h; simp

theorem exec_redrawPending_writer (h : exec i s = .next t) (hne : t.redrawPending ≠ s.redrawPending) :
    renderForced i = true ∨ (∃ d, i = .data d) ∨ (redrawNeeded s.params i = true ∧ s.displayOn = true) := by
  by_cases hd : ∃ d, i = .data d
  · exact .inr (.inl hd)
  · rw [exec_redrawPending h (not_exists.mp hd)] at hne
    cases hf : renderForced i with
    | true => exact .inl rfl
    | false =>
      refine .inr (.inr ?_)
      by_contra hn
      rw [← Bool.and_eq_true, Bool.not_eq_true] at hn
      simp [hf, hn] at hne

end Writers

/-- Settles O48, register by register. -/
theorem onlyTheNamedWritersChangeARegister : Obligations.OnlyTheNamedWritersChangeARegister := by
  intro i s t h
  obtain ⟨-, -, -, hframe, hbuf, hidx, hexp, hinbox⟩ := exec_keeps h
  exact ⟨exec_contrast_writer h, exec_invert_writer h, exec_reverseRows_writer h, exec_segmentRemap_writer h,
    exec_displayOn_writer h, exec_memoryMode_writer h, exec_clockDivider_writer h, exec_phase_writer h,
    exec_startLine_writer h, exec_activeColumn_writer h, exec_activePage_writer h, exec_pixmem_writer h,
    exec_modes_writer h, exec_redrawPending_writer h, hframe, hbuf, hidx, hexp, hinbox⟩

/-! ### The invariant (R22, R40) -/

/-- An instruction keeps canonical memory: only a data byte writes it, at an index in range (R51). -/
theorem exec_wf_pixmem {i : Instr} {s t : State} (h : exec i s = .next t) (hm : Memory.wf s.pixmem = true) :
    Memory.wf t.pixmem = true := by
  by_cases e : t.pixmem = s.pixmem
  · rwa [e]
  · obtain ⟨d, rfl⟩ := exec_pixmem_writer h e
    injection h with h
    subst h
    simpa using Memory.wf_write _ s.targetAddr d hm

/-- An instruction keeps `clock_divider` or puts it in [1, 16] (R29, R150). -/
theorem exec_clockDivider {i : Instr} {s t : State} (h : exec i s = .next t) :
    t.clockDivider = s.clockDivider ∨ (1 ≤ t.clockDivider.toNat ∧ t.clockDivider.toNat ≤ 16) := by
  by_cases e : t.clockDivider = s.clockDivider
  · exact .inl e
  · obtain ⟨p, rfl⟩ := exec_clockDivider_writer h e
    injection h with h
    subst h
    simp only [State.finishCommand_clockDivider, clockOf_toNat]
    omega

/-- A state meets the invariant when it takes the parser's fields, the parameters and `multiplex` from one that does,
and its memory and `clock_divider` are legal. -/
theorem State.Inv.of_kept {s t : State} (hs : s.Inv) (hmem : Memory.wf t.pixmem = true)
    (hlow : 1 ≤ t.clockDivider.toNat) (htop : t.clockDivider.toNat ≤ 16) (hidx : t.cmdIndex = s.cmdIndex)
    (hexp : t.cmdExpected = s.cmdExpected) (hbuf : t.cmdBuf = s.cmdBuf) (hpar : t.params = s.params)
    (hmux : t.multiplex = s.multiplex) : t.Inv where
  memory   := hmem
  parser   := by rw [hidx, hexp]; exact hs.parser
  expected := by rw [hidx, hexp, hbuf, hpar]; exact hs.expected
  clockLow := hlow
  clockTop := htop
  mux      := by rw [hmux]; exact hs.mux

/-- The invariant reads neither the receiver's modes nor the render flag, the frame or the two queues. -/
theorem State.Inv.interface {s : State} (hs : s.Inv) (cp co cm rp : Bool) (f : Frame) (inb : List Event)
    (outb : List Output) :
    { s with
      ctrlPending := cp, continuous := co, commandMode := cm, redrawPending := rp, frame := f, inbox := inb
      outbox := outb }.Inv :=
  hs.of_kept hs.memory hs.clockLow hs.clockTop rfl rfl rfl rfl rfl

theorem State.Inv.emit {s : State} (hs : s.Inv) (o : Output) : (s.emit o).Inv :=
  hs.interface ..

theorem State.Inv.endOfForwardedByte {s : State} (hs : s.Inv) : s.endOfForwardedByte.Inv := by
  unfold State.endOfForwardedByte
  split
  · exact hs
  · exact hs.interface ..

theorem State.Inv.fireTimer {s : State} (hs : s.Inv) : s.fireTimer.Inv :=
  hs.interface ..

/-- Every meaning keeps the invariant. -/
theorem exec_keeps_inv {i : Instr} {s t : State} (h : exec i s = .next t) (hs : s.Inv) : t.Inv := by
  obtain ⟨hpar, -, hmux, -, hbuf, hidx, hexp, -⟩ := exec_keeps h
  have hclk : 1 ≤ t.clockDivider.toNat ∧ t.clockDivider.toNat ≤ 16 := by
    obtain hc | hc := exec_clockDivider h
    · rw [hc]; exact ⟨hs.clockLow, hs.clockTop⟩
    · exact hc
  exact hs.of_kept (exec_wf_pixmem h hs.memory) hclk.1 hclk.2 hidx hexp hbuf hpar hmux

/-- Once byte `b` has arrived, the expected length is the one of the opcode in the buffer, be it `b` or an earlier byte
(R120). -/
theorem State.Inv.expectedWith_eq {s : State} (hs : s.Inv) (b : Byte) :
    s.expectedWith b = (s.params.arity (s.append b).cmdBuf[0]).succ := by
  unfold State.expectedWith
  split
  · next h0 => simp [h0]
  · next h0 =>
    have hne : s.cmdIndex.val ≠ 0 := fun e => h0 (Fin.ext e)
    rw [hs.expected h0]
    simp [Vector.getElem_set_ne, hne]

/-- The index stays below the length once a byte has arrived (R40). -/
theorem State.Inv.cmdIndex_lt_expectedWith {s : State} (hs : s.Inv) (b : Byte) :
    s.cmdIndex.val < (s.expectedWith b).val := by
  unfold State.expectedWith
  split
  · next h0 => simp [h0]
  · exact hs.parser

/-- The append of a command byte keeps the invariant, with any index below the new length (R120, R121). -/
theorem State.Inv.append_withIndex {s : State} (hs : s.Inv) (b : Byte) {k : Fin 8}
    (hk : k.val < (s.expectedWith b).val) : { s.append b with cmdIndex := k }.Inv where
  memory   := hs.memory
  parser   := hk
  expected := fun _ => hs.expectedWith_eq b
  clockLow := hs.clockLow
  clockTop := hs.clockTop
  mux      := hs.mux

theorem State.Inv.append {s : State} (hs : s.Inv) (b : Byte) : (s.append b).Inv :=
  hs.append_withIndex b (hs.cmdIndex_lt_expectedWith b)

/-- The reset of the index after a command keeps the invariant (R122). -/
theorem State.Inv.resetIndex {s : State} (hs : s.Inv) : { s with cmdIndex := 0 }.Inv where
  memory   := hs.memory
  parser   := Nat.zero_lt_of_lt hs.parser
  expected := fun h0 => absurd rfl h0
  clockLow := hs.clockLow
  clockTop := hs.clockTop
  mux      := hs.mux

/-- A `Write` keeps the invariant, whatever the kind of its byte (R102). -/
theorem onWrite_keeps_inv {b : Byte} {s t : State} (h : onWrite b s = .next t) (hs : s.Inv) : t.Inv := by
  obtain ⟨-, e⟩ | ⟨-, u, hu, e⟩ | ⟨-, _, hlt, e⟩ | ⟨-, -, u, hu, e⟩ := onWrite_cases b s <;>
    obtain rfl := Host.Outcome.next.inj (e.symm.trans h)
  case inl => exact hs.interface ..
  case inr.inl => exact (exec_keeps_inv hu hs).endOfForwardedByte.emit _
  case inr.inr.inl => exact (hs.append_withIndex b hlt).endOfForwardedByte.emit _
  case inr.inr.inr => exact (exec_keeps_inv hu (hs.append b)).resetIndex.endOfForwardedByte.emit _

/-- Settles O54, by the cases of a step; taking an event off the inbox touches no field the invariant reads. -/
theorem stepKeepsInvariant : Obligations.StepKeepsInvariant := by
  intro s t hs h
  have hpop (rest : List Event) : { s with inbox := rest }.Inv := hs.interface ..
  obtain ⟨-, -, rfl⟩ | ⟨-, -, rfl⟩ | ⟨rest, -, rfl⟩ | ⟨rest, -, rfl⟩ | ⟨rest, -, -, rfl⟩ | ⟨b, rest, -, hw⟩ :=
    step_cases h
  · exact hs.fireTimer
  · exact hs
  · exact hs.interface ..
  · exact (hpop rest).emit _
  · exact (hpop rest).fireTimer
  · exact onWrite_keeps_inv hw (hpop rest)

/-! ### The stored-only registers (R23, R29 to R31)

A state with its stored-only registers erased is the same for two states that agree on everything else, so
noninterference is: a step sees no more of a state than of the state erased, up to what it leaves in those registers. -/

/-- The state with `contrast`, `clock_divider`, `multiplex`, `phase1` and `phase2` erased. -/
def State.eraseStored (s : State) : State :=
  { s with contrast := 0, clockDivider := 0, multiplex := 0, phase1 := 0, phase2 := 0 }

theorem State.sameButStored_iff (s t : State) : s.sameButStored t ↔ t.eraseStored = s.eraseStored := by
  simp [State.sameButStored, State.eraseStored, State.mk.injEq]

/-- A result with the stored-only registers of its state erased. -/
def eraseResult (r : Result) : Result := andThen r fun t => .next t.eraseStored

theorem eraseResult_next (t : State) : eraseResult (.next t) = .next t.eraseStored := rfl

/-- What is left of a refusal is the refusal, and only a refusal leaves one. -/
theorem eraseResult_eq_refused {r : Result} {x : Refusal} : eraseResult r = .refused x ↔ r = .refused x := by
  cases r <;> simp [eraseResult]

/-- An operation answers alike, up to the stored-only registers, on a state and on the state erased. -/
def IgnoresStored (k : State → Result) : Prop :=
  ∀ s : State, eraseResult (k s.eraseStored) = eraseResult (k s)

/-- An update that commutes with the erasure ignores the stored-only registers. -/
theorem ignoresStored_next {g : State → State} (h : ∀ s, (g s).eraseStored = g s.eraseStored) :
    IgnoresStored fun s => .next (g s) := by
  intro s
  rw [eraseResult_next, eraseResult_next, h, h]
  rfl

/-- States that agree but for the stored-only registers are taken to results that do. -/
theorem IgnoresStored.eraseResult_eq {k : State → Result} (hk : IgnoresStored k) {s t : State}
    (h : s.eraseStored = t.eraseStored) : eraseResult (k s) = eraseResult (k t) := by
  rw [← hk s, h, hk t]

theorem eraseResult_andThen {r r' : Result} {k : State → Result} (h : eraseResult r = eraseResult r')
    (hk : IgnoresStored k) : eraseResult (andThen r k) = eraseResult (andThen r' k) := by
  cases r' with
  | next t =>
    obtain ⟨s, rfl, hs⟩ := andThen_eq_next h
    exact hk.eraseResult_eq (Host.Outcome.next.inj hs)
  | fault f => cases f
  | refused x => rw [eraseResult_eq_refused.mp h]

/-- A sequence ignores the stored-only registers when its parts do. -/
theorem IgnoresStored.seq {j k : State → Result} (hj : IgnoresStored j) (hk : IgnoresStored k) :
    IgnoresStored fun s => andThen (j s) k :=
  fun s => eraseResult_andThen (hj s) hk

/-- A request reads only `redraw_pending` and the parameters (R220). -/
theorem State.eraseStored_requestRender (s : State) :
    s.requestRender.eraseStored = s.eraseStored.requestRender := by
  simp only [State.requestRender_eq]
  rfl

theorem State.eraseStored_finishCommand (i : Instr) (s : State) :
    (s.finishCommand i).eraseStored = s.eraseStored.finishCommand i := by
  simp only [State.finishCommand_eq, apply_ite State.eraseStored, State.eraseStored_requestRender]
  rfl

theorem State.eraseStored_advance (s : State) : s.advance.eraseStored = s.eraseStored.advance := by
  simp only [State.advance_eq]
  rfl

theorem State.eraseStored_endOfForwardedByte (s : State) :
    s.endOfForwardedByte.eraseStored = s.eraseStored.endOfForwardedByte := by
  simp only [State.endOfForwardedByte, apply_ite State.eraseStored]
  rfl

/-- A command's end ignores the stored-only registers, so a command does when its own writes do. -/
theorem eraseResult_finishCommand {i : Instr} {s t : State} (h : s.eraseStored = t.eraseStored) :
    eraseResult (.next (s.finishCommand i)) = eraseResult (.next (t.finishCommand i)) := by
  simp only [eraseResult_next, State.eraseStored_finishCommand, h]

theorem exec_ignoresStored (i : Instr) : IgnoresStored (exec i) := by
  intro s
  cases i
  case ctrl => rfl
  case data d =>
    change eraseResult (execData d s.eraseStored) = eraseResult (execData d s)
    simp only [execData, eraseResult_next, State.eraseStored_requestRender, State.eraseStored_advance]
    rfl
  all_goals exact eraseResult_finishCommand rfl

/-- A byte that does not complete its command is buffered (R123). -/
theorem assemble_incomplete {b : Byte} {s : State} (h : s.cmdIndex.val + 1 < (s.expectedWith b).val) :
    assemble b s = .next { s.append b with
      cmdIndex := ⟨s.cmdIndex.val + 1, Nat.lt_of_lt_of_le h (Nat.le_of_lt_succ (s.expectedWith b).isLt)⟩ } :=
  dif_pos h

/-- A byte that completes its command has it interpreted (R122). -/
theorem assemble_complete {b : Byte} {s : State} (h : ¬ s.cmdIndex.val + 1 < (s.expectedWith b).val) :
    assemble b s = andThen (exec (s.append b).buffered (s.append b)) fun t => .next { t with cmdIndex := 0 } :=
  dif_neg h

/-- The assembler reads no stored-only register, and so buffers and interprets the same. -/
theorem assemble_ignoresStored (b : Byte) : IgnoresStored (assemble b) := by
  intro s
  have hlen : s.eraseStored.cmdIndex.val + 1 < (s.eraseStored.expectedWith b).val ↔
      s.cmdIndex.val + 1 < (s.expectedWith b).val := Iff.rfl
  by_cases h : s.cmdIndex.val + 1 < (s.expectedWith b).val
  · rw [assemble_incomplete (hlen.mpr h), assemble_incomplete h]
    rfl
  · rw [assemble_complete (mt hlen.mp h), assemble_complete h]
    exact eraseResult_andThen (exec_ignoresStored _ (s.append b)) (ignoresStored_next fun _ => rfl)

theorem State.eraseStored_byteClass (s : State) : s.eraseStored.byteClass = s.byteClass := rfl

theorem onWrite_ignoresStored (b : Byte) : IgnoresStored (onWrite b) := by
  intro s
  have hend : IgnoresStored fun t => .next t.endOfForwardedByte :=
    ignoresStored_next State.eraseStored_endOfForwardedByte
  refine eraseResult_andThen ?_ (ignoresStored_next fun _ => rfl)
  rw [State.eraseStored_byteClass]
  cases s.byteClass with
  | control => exact exec_ignoresStored _ s
  | command => exact (assemble_ignoresStored b).seq hend s
  | data => exact (exec_ignoresStored _).seq hend s

/-- The timer's callback, or what stands in its place with none outstanding: a render reads no stored-only register
(R222, R228). -/
theorem ignoresStored_ifPending {k : State → Result} (hk : IgnoresStored k) :
    IgnoresStored fun s => if s.redrawPending then .next s.fireTimer else k s := by
  intro s
  have hrp : s.eraseStored.redrawPending = s.redrawPending := rfl
  simp only [hrp]
  split
  · rfl
  · exact hk s

theorem onEvent_ignoresStored (e : Event) : IgnoresStored (onEvent e) := by
  cases e with
  | connect => exact fun _ => rfl
  | write b => exact onWrite_ignoresStored b
  | read => exact fun _ => rfl
  | timerFire => exact ignoresStored_ifPending fun _ => rfl

theorem step_ignoresStored : IgnoresStored step := by
  intro s
  have hin : s.eraseStored.inbox = s.inbox := rfl
  cases h : s.inbox with
  | nil =>
    rw [step_quiet h, step_quiet (hin.trans h)]
    exact ignoresStored_ifPending (k := .next) (fun _ => rfl) s
  | cons e rest =>
    rw [step_event h, step_event (hin.trans h)]
    exact onEvent_ignoresStored e { s with inbox := rest }

/-- Settles O51: the step ignores the stored-only registers. -/
theorem storedOnlyRegistersAffectNothing : Obligations.StoredOnlyRegistersAffectNothing := by
  intro s t hst
  have hstep : eraseResult (step t) = eraseResult (step s) :=
    step_ignoresStored.eraseResult_eq ((State.sameButStored_iff s t).mp hst)
  constructor
  · intro s' hs'
    rw [hs', eraseResult_next] at hstep
    obtain ⟨t', ht', he⟩ := andThen_eq_next hstep
    exact ⟨t', ht', (State.sameButStored_iff s' t').mpr (Host.Outcome.next.inj he)⟩
  · intro x hx
    rw [hx] at hstep
    exact eraseResult_eq_refused.mp hstep

/-! ### The sink's bytes (R44, R229) -/

/-- Every byte the sink stores is one of the four lanes. -/
theorem sinkLanes_getD_lt (o : SinkByteOrder) (k : Nat) (hk : k < 4) : (sinkLanes o).getD k 0 < 4 := by
  obtain ⟨a, b, c⟩ := o
  decide +revert

/-- Every lane is stored at one of the four places: the order is a permutation. -/
theorem exists_sinkLanes_getD_eq (o : SinkByteOrder) (j : Nat) (hj : j < 4) :
    ∃ k < 4, (sinkLanes o).getD k 0 = j := by
  obtain ⟨a, b, c⟩ := o
  decide +revert

/-- Byte `k` of cell number `c` in the sink (R229). -/
theorem State.sinkByte_eq (s : State) (c k : Nat) (hk : k < 4) :
    s.sinkByte (c * 4 + k) = byteLane (s.cell c) ((sinkLanes s.params.sinkByteOrder).getD k 0) := by
  have hdiv : (c * 4 + k) / 4 = c := by omega
  have hmod : (c * 4 + k) % 4 = k := by omega
  rw [State.sinkByte, hdiv, hmod]

/-- A cell is determined by its four lanes: bit `i` is bit `i % 8` of lane `i / 8`. -/
theorem eq_of_byteLane_eq {v w : Cell32} (h : ∀ j < 4, byteLane v j = byteLane w j) : v = w := by
  refine BitVec.eq_of_getLsbD_eq fun i hi => ?_
  have hbit (u : Cell32) : (byteLane u (i / 8)).getLsbD (i % 8) = u.getLsbD i := by
    have : 8 * (i / 8) + i % 8 = i := by omega
    have : i % 8 < 8 := by omega
    simp [byteLane, *]
  rw [← hbit v, ← hbit w, h (i / 8) (by omega)]

/-- A frame is determined by its cells. -/
theorem State.frame_eq_of_cell_eq {s t : State} (h : ∀ c < FRAME_CELLS, s.cell c = t.cell c) : s.frame = t.frame := by
  refine Vector.ext fun c hc => ?_
  simpa [State.cell, hc] using h c hc

/-- With one byte order, equal sink bytes give equal cells. -/
theorem State.cell_eq_of_sinkByte_eq {s t : State} {c : Nat}
    (ho : s.params.sinkByteOrder = t.params.sinkByteOrder)
    (h : ∀ k < 4, s.sinkByte (c * 4 + k) = t.sinkByte (c * 4 + k)) : s.cell c = t.cell c := by
  refine eq_of_byteLane_eq fun j hj => ?_
  obtain ⟨k, hk, rfl⟩ := exists_sinkLanes_getD_eq t.params.sinkByteOrder j hj
  have hb := h k hk
  rwa [s.sinkByte_eq c k hk, t.sinkByte_eq c k hk, ho] at hb

/-- Settles O45: the four places of a cell hold its four lanes, each once. -/
theorem sinkBytesDetermineTheFrame : Obligations.SinkBytesDetermineTheFrame := by
  constructor
  · intro s x y k _ _ hk
    exact ⟨_, sinkLanes_getD_lt s.params.sinkByteOrder k hk, s.sinkByte_eq (y * 128 + x) k hk⟩
  · intro s t ho h
    refine State.frame_eq_of_cell_eq fun c hc => State.cell_eq_of_sinkByte_eq ho fun k hk => h _ ?_
    simp only [FRAME_CELLS] at hc
    omega

end Sys2Proof.Machine
end

section
/-! PROOF. The statement of 20_memory.md: a render pass is idempotent in the frame (R58). -/

namespace Sys2Proof.Machine

/-- A render reads nothing the render pass writes (R224). -/
@[simp] theorem State.renderPass_renderPixel (s : State) (x y : Nat) :
    s.renderPass.renderPixel x y = s.renderPixel x y := rfl

/-- A render reads nothing `TimerFire` writes, the frame and the render flag (R222, R224). -/
@[simp] theorem State.fireTimer_renderPixel (s : State) (x y : Nat) :
    s.fireTimer.renderPixel x y = s.renderPixel x y := rfl

/-- A render reads nothing a render request writes, the render flag and the outputs (R220, R224). -/
@[simp] theorem State.requestRender_renderPixel (s : State) (x y : Nat) :
    s.requestRender.renderPixel x y = s.renderPixel x y := by
  rw [State.requestRender_eq]
  rfl

/-- A second pass over the state the first one left writes the same cells again (R58). -/
@[simp] theorem State.renderPass_renderPass (s : State) : s.renderPass.renderPass = s.renderPass := by
  rw [State.renderPass]
  simp only [State.renderPass_renderPixel]
  rfl

/-- A render requested right after a render shows the same frame (R58, R222). -/
theorem State.fireTimer_requestRender_fireTimer_frame (s : State) :
    s.fireTimer.requestRender.fireTimer.frame = s.fireTimer.frame := by
  rw [State.fireTimer_frame, State.fireTimer_frame]
  simp only [State.requestRender_renderPixel, State.fireTimer_renderPixel]

/-- Settles O43: the renderer reads neither the frame nor the render flag, so both renders compute the same cells. -/
theorem renderPassIsIdempotent : Obligations.RenderPassIsIdempotent := by
  intro s
  exact ⟨s.renderPass_renderPass, s.fireTimer_requestRender_fireTimer_frame⟩

end Sys2Proof.Machine
end

section
/-! PROOF. The statements of 30_encoding.md: decoder and encoder agree (R70 to R78), under any tables and under those of
R74 and R76; what a byte of each kind does (R70, R71, R103, R126), and that the bytes of a command run that command (R72,
R122). -/

namespace Sys2Proof

/-! ### The named classes (R74) -/

section Named
variable {p : Params} {i : Instr} {c : NamedClass} {op b : Byte}

/-- An instruction without a named class is a control or data byte, a cursor command or an unrecognized opcode. -/
theorem Instr.unnamed_cases (h : i.namedClass = none) :
    (∃ co dc r, i = .ctrl co dc r) ∨ (∃ d, i = .data d) ∨ (∃ n, i = .setColLo n) ∨ (∃ n, i = .setColHi n) ∨
    (∃ n, i = .setPage n) ∨ ∃ op, i = .unrecognized op := by
  cases i <;> simp_all [Instr.namedClass]

/-- A named instruction is made of its class and its parameter byte (R72, R78). -/
theorem namedInstr_paramByte (h : i.namedClass = some c) : namedInstr c (paramByte i) = i := by
  cases i <;> cases h <;> rfl

theorem namedClass_namedInstr (c : NamedClass) (par : Byte) : (namedInstr c par).namedClass = some c := by
  cases c <;> rfl

theorem paramByte_namedInstr (par : Byte) (h : c.takesParam = true) : paramByte (namedInstr c par) = par := by
  cases c <;> first | rfl | cases h

theorem wellFormed_named (h : i.namedClass = some c) : wellFormed p i = p.encodesNamed c := by
  cases i <;> cases h <;> rfl

theorem firstByte_named (h : i.namedClass = some c) : firstByte p i = (p.opcodeOf c).getD 0 := by
  cases i <;> cases h <;> rfl

/-- The byte of a class decodes to the class (R75). -/
theorem namedAt_of_opcodeOf (h : p.opcodeOf c = some b) : p.namedAt b = some c := by
  obtain ⟨r, hr, rfl⟩ := Option.map_eq_some_iff.mp h
  simpa using List.find?_some hr

theorem encodesNamed_iff :
    p.encodesNamed c = true ↔ ∃ b, p.opcodeOf c = some b ∧ (c.takesParam = true → 0 < (p.arity b).val) := by
  unfold Params.encodesNamed
  cases p.opcodeOf c <;> simp [imp_iff_not_or]

/-- A byte that decodes to a class stands in the map with it (R74). -/
theorem mem_opcodeMap_of_namedAt (h : p.namedAt b = some c) : (b, c) ∈ p.opcodeMap := by
  unfold Params.namedAt at h
  split at h
  · cases h
  · obtain ⟨l₁, l₂, e, -⟩ := List.lookup_eq_some_iff.mp h
    simp [e]

/-- When the map gives no class two bytes, the one that decodes to a class is its byte. -/
theorem opcodeOf_of_namedAt (hmap : (p.opcodeMap.map Prod.snd).Nodup) (h : p.namedAt b = some c) :
    p.opcodeOf c = some b := by
  cases hf : p.opcodeOf c with
  | none =>
    have hall := List.find?_eq_none.mp (Option.map_eq_none_iff.mp hf)
    exact absurd (decide_eq_true h) (hall _ (mem_opcodeMap_of_namedAt h))
  | some b' =>
    have hb := mem_opcodeMap_of_namedAt h
    have hb' := mem_opcodeMap_of_namedAt (namedAt_of_opcodeOf hf)
    have := List.inj_on_of_nodup_map hmap hb hb' rfl
    simp_all

end Named

/-! ### The class of an opcode byte, line by line (R75) -/

section Classify
variable {p : Params} {c : NamedClass} {op : Byte}

theorem classify_eq_named_iff : classify p op = .named c ↔ p.namedAt op = some c := by
  cases h : p.namedAt op <;> simp [classify, h]
  split_ifs <;> simp

theorem classify_eq_setColLo_iff : classify p op = .setColLo ↔ p.namedAt op = none ∧ op.toNat ≤ 0x0F := by
  cases h : p.namedAt op <;> simp [classify, h]
  split_ifs <;> simp [*]

theorem classify_eq_setColHi_iff :
    classify p op = .setColHi ↔ p.namedAt op = none ∧ 0x10 ≤ op.toNat ∧ op.toNat ≤ 0x17 := by
  cases h : p.namedAt op <;> simp [classify, h]
  split_ifs <;> simp <;> omega

theorem classify_eq_setPage_iff :
    classify p op = .setPage ↔ p.namedAt op = none ∧ 0xB0 ≤ op.toNat ∧ op.toNat ≤ 0xC0 := by
  cases h : p.namedAt op <;> simp [classify, h]
  split_ifs <;> simp <;> omega

theorem classify_eq_unrecognized_iff :
    classify p op = .unrecognized ↔ p.namedAt op = none ∧ inCursorRange op = false := by
  cases h : p.namedAt op <;> simp [classify, inCursorRange, h]
  split_ifs <;> simp <;> omega

/-- An unrecognized opcode is well-formed when no line of R75 takes its byte (R170). -/
theorem wellFormed_unrecognized_iff : wellFormed p (.unrecognized op) = true ↔ classify p op = .unrecognized := by
  rw [classify_eq_unrecognized_iff]
  simp [wellFormed]

/-! The byte of each cursor command (R73). -/

theorem classify_setColLo {n : BitVec 4} (h : p.namedAt (0x0#4 ++ n) = none) :
    classify p (0x0#4 ++ n) = .setColLo := by
  have hrange : ∀ n : BitVec 4, (0x0#4 ++ n).toNat ≤ 0x0F := by decide
  exact classify_eq_setColLo_iff.mpr ⟨h, hrange n⟩

theorem classify_setColHi {n : BitVec 3} (h : p.namedAt (0x02#5 ++ n) = none) :
    classify p (0x02#5 ++ n) = .setColHi := by
  have hrange : ∀ n : BitVec 3, 0x10 ≤ (0x02#5 ++ n).toNat ∧ (0x02#5 ++ n).toNat ≤ 0x17 := by decide
  exact classify_eq_setColHi_iff.mpr ⟨h, hrange n⟩

theorem classify_setPage {n : BitVec 4} (h : p.namedAt (0xB#4 ++ n) = none) :
    classify p (0xB#4 ++ n) = .setPage := by
  have hrange : ∀ n : BitVec 4, 0xB0 ≤ (0xB#4 ++ n).toNat ∧ (0xB#4 ++ n).toNat ≤ 0xC0 := by decide
  exact classify_eq_setPage_iff.mpr ⟨h, hrange n⟩

end Classify

/-! ### What a well-formed instruction is read from -/

section Inverse
variable {p : Params} {i : Instr} {op par : Byte}

/-- A control byte is read back field by field (R71). -/
theorem ctrlOf_firstByte (co dc : Bool) (r : BitVec 6) : ctrlOf (firstByte p (.ctrl co dc r)) = .ctrl co dc r := by
  have hfields : ∀ (co dc : Bool) (r : BitVec 6),
      ctrlOf (BitVec.ofBool co ++ BitVec.ofBool dc ++ r) = .ctrl co dc r := by decide
  exact hfields co dc r

theorem firstByte_ctrlOf (p : Params) (b : Byte) : firstByte p (ctrlOf b) = b := by
  have hfields : ∀ b : Byte,
      BitVec.ofBool (b.getLsbD 7) ++ BitVec.ofBool (b.getLsbD 6) ++ b.extractLsb' 0 6 = b := by decide
  exact hfields b

theorem byteClass_instrOf (p : Params) (op par : Byte) : (instrOf p op par).byteClass = .command := by
  unfold instrOf
  cases classify p op with
  | named c => cases c <;> rfl
  | _ => rfl

theorem paramByte_instrOf (par : Byte) (h : opTakesParam p op = true) : paramByte (instrOf p op par) = par := by
  unfold opTakesParam at h
  unfold instrOf
  split at h <;> simp_all [paramByte_namedInstr]

/-- A well-formed command is what its own bytes make (R75, R78). -/
theorem instrOf_firstByte (hwf : wellFormed p i = true) (hc : i.byteClass = .command) :
    instrOf p (firstByte p i) (paramByte i) = i := by
  cases hn : i.namedClass with
  | some c =>
    rw [wellFormed_named hn] at hwf
    obtain ⟨b, hb, -⟩ := encodesNamed_iff.mp hwf
    have hcl := classify_eq_named_iff.mpr (namedAt_of_opcodeOf hb)
    simp only [instrOf, firstByte_named hn, hb, Option.getD_some, hcl]
    exact namedInstr_paramByte hn
  | none =>
    obtain ⟨_, _, _, rfl⟩ | ⟨_, rfl⟩ | ⟨n, rfl⟩ | ⟨n, rfl⟩ | ⟨n, rfl⟩ | ⟨op, rfl⟩ := Instr.unnamed_cases hn
    · cases hc
    · cases hc
    · simp only [instrOf, firstByte, classify_setColLo (Option.isNone_iff_eq_none.mp hwf)]
      exact congrArg _ BitVec.extractLsb'_append_eq_right
    · simp only [instrOf, firstByte, classify_setColHi (Option.isNone_iff_eq_none.mp hwf)]
      exact congrArg _ BitVec.extractLsb'_append_eq_right
    · simp only [instrOf, firstByte, classify_setPage (Option.isNone_iff_eq_none.mp hwf)]
      exact congrArg _ BitVec.extractLsb'_append_eq_right
    · simp only [instrOf, firstByte, wellFormed_unrecognized_iff.mp hwf]

/-- The opcode of a well-formed command has room for the parameter byte its class reads (R76). -/
theorem arity_pos_of_opTakesParam (hwf : wellFormed p i = true) (hc : i.byteClass = .command)
    (ht : opTakesParam p (firstByte p i) = true) : 0 < (p.arity (firstByte p i)).val := by
  unfold opTakesParam at ht
  split at ht <;> try cases ht
  next c hcl =>
    have hi := instrOf_firstByte hwf hc
    simp only [instrOf, hcl] at hi
    have hn : i.namedClass = some c := by rw [← hi]; exact namedClass_namedInstr c _
    rw [wellFormed_named hn] at hwf
    obtain ⟨b, hb, harity⟩ := encodesNamed_iff.mp hwf
    rw [firstByte_named hn, hb]
    exact harity ht

end Inverse

/-! ### Decoding one command (R72, R76) -/

theorem decode_command_eq_ok_iff {p : Params} {op : Byte} {bs rest : List Byte} {i : Instr} :
    decode p .command (op :: bs) = .ok (i, rest) ↔
      (p.arity op).val ≤ bs.length ∧ (opTakesParam p op = true → 0 < (p.arity op).val) ∧
      instrOf p op (bs.headD 0) = i ∧ bs.drop (p.arity op).val = rest := by
  simp only [decode]
  split_ifs with hlen hpar
  · simpa using fun hle => absurd hlen (Nat.not_lt.mpr hle)
  · simp_all
  · have hpos : opTakesParam p op = true → 0 < (p.arity op).val := fun ht =>
      Nat.pos_of_ne_zero fun h0 => hpar (by rw [ht, decide_eq_true h0, Bool.and_self])
    rw [Except.ok.injEq, Prod.mk.injEq, and_iff_right (Nat.not_lt.mp hlen), and_iff_right hpos]

/-- The bytes of a command: its opcode and as many parameter bytes as the arity says, the operand first (R72, R76). -/
theorem encode_command (p : Params) {i : Instr} (hc : i.byteClass = .command) :
    ∃ ps, encode p i = firstByte p i :: ps ∧ ps.length = (p.arity (firstByte p i)).val ∧
      (0 < (p.arity (firstByte p i)).val → ∀ rest, (ps ++ rest).headD 0 = paramByte i) := by
  refine ⟨_, by rw [encode, hc], ?_, fun hpos rest => ?_⟩
  · have := (p.arity (firstByte p i)).isLt
    simp; omega
  · obtain ⟨k, hk⟩ := Nat.exists_eq_succ_of_ne_zero hpos.ne'
    simp [hk]

/-- Settles O19: the opcode gives the class, and the first byte after it the operand where the class reads one. -/
theorem decodeOfEncode : Obligations.DecodeOfEncode := by
  intro p i rest hwf
  cases hk : i.byteClass with
  | control => cases i <;> cases hk; exact congrArg (fun j => Except.ok (j, rest)) (ctrlOf_firstByte ..)
  | data => cases i <;> cases hk; rfl
  | command =>
    obtain ⟨ps, henc, hlen, hhead⟩ := encode_command p hk
    rw [henc, List.cons_append, decode_command_eq_ok_iff]
    refine ⟨by simp [hlen], arity_pos_of_opTakesParam hwf hk, ?_, List.drop_left' hlen⟩
    refine Eq.trans ?_ (instrOf_firstByte hwf hk)
    cases ht : opTakesParam p (firstByte p i) with
    | false => exact Machine.instrOf_ignores_parameter _ _ _ _ ht
    | true => rw [hhead (arity_pos_of_opTakesParam hwf hk ht) rest]

/-! ### The encoding of what decodes (R75, R76) -/

section Decoded
variable {p : Params} {op : Byte}

/-- What an opcode makes is encoded by that opcode, when no class has two opcodes, a class that reads a parameter byte
has room for it, and the byte is not the other spelling of SETPAGE 0 (R169). -/
theorem firstByte_instrOf (par : Byte) (hmap : (p.opcodeMap.map Prod.snd).Nodup)
    (hpos : opTakesParam p op = true → 0 < (p.arity op).val) (hC0 : classify p op = .setPage → op ≠ 0xC0) :
    wellFormed p (instrOf p op par) = true ∧ firstByte p (instrOf p op par) = op := by
  cases hcl : classify p op with
  | named c =>
    have hn := namedClass_namedInstr c par
    have hop := opcodeOf_of_namedAt hmap (classify_eq_named_iff.mp hcl)
    simp only [opTakesParam, hcl] at hpos
    simp only [instrOf, hcl, wellFormed_named hn, firstByte_named hn, hop, Option.getD_some, and_true]
    exact encodesNamed_iff.mpr ⟨op, hop, hpos⟩
  | setColLo =>
    obtain ⟨hn, hle⟩ := classify_eq_setColLo_iff.mp hcl
    have hbyte : ∀ op : Byte, op.toNat ≤ 0x0F → 0x0#4 ++ op.extractLsb' 0 4 = op := by decide
    simp [instrOf, hcl, wellFormed, firstByte, hbyte op hle, hn]
  | setColHi =>
    obtain ⟨hn, hge, hle⟩ := classify_eq_setColHi_iff.mp hcl
    have hbyte : ∀ op : Byte, 0x10 ≤ op.toNat → op.toNat ≤ 0x17 → 0x02#5 ++ op.extractLsb' 0 3 = op := by decide
    simp [instrOf, hcl, wellFormed, firstByte, hbyte op hge hle, hn]
  | setPage =>
    obtain ⟨hn, hge, hle⟩ := classify_eq_setPage_iff.mp hcl
    have hbyte : ∀ op : Byte, 0xB0 ≤ op.toNat → op.toNat ≤ 0xC0 → op ≠ 0xC0 →
        0xB#4 ++ op.extractLsb' 0 4 = op := by decide
    simp [instrOf, hcl, wellFormed, firstByte, hbyte op hge hle (hC0 hcl), hn]
  | unrecognized => simp [instrOf, hcl, wellFormed_unrecognized_iff, firstByte]

end Decoded

/-! ### The tables of R74 and R76 -/

/-- Parameters with the tables of R74 and R76 and a given `C0_CLASS`. -/
def Params.standard (k : C0Class) : Params := { Params.sh1107 with c0Class := k }

section Standard
variable {p : Params}

/-- No class has two opcodes (R74). -/
theorem opcodeMap_sh1107_nodup : (OpcodeMap.sh1107.map Prod.snd).Nodup := by decide

theorem namedAt_standard (h : p.opcodeMap = OpcodeMap.sh1107) : p.namedAt = (Params.standard p.c0Class).namedAt := by
  funext op
  rw [Params.namedAt, h]
  rfl

theorem opcodeOf_standard (h : p.opcodeMap = OpcodeMap.sh1107) :
    p.opcodeOf = (Params.standard p.c0Class).opcodeOf := by
  funext c
  rw [Params.opcodeOf, namedAt_standard h, h]
  rfl

theorem classify_standard (h : p.opcodeMap = OpcodeMap.sh1107) : classify p = classify (Params.standard p.c0Class) := by
  funext op
  rw [classify, namedAt_standard h]
  rfl

theorem arity_standard (h : p.arityTable = ArityTable.sh1107) : p.arity = (Params.standard p.c0Class).arity := by
  funext op
  rw [Params.arity, h]
  rfl

/-- A command is as long as its class needs: one parameter byte where the class reads one, none elsewhere (R76). -/
theorem arity_eq_opTakesParam (h : p.standardTables) (op : Byte) : (p.arity op).val = (opTakesParam p op).toNat := by
  have hall : ∀ op : Byte, ((Params.standard .comScanInc).arity op).val =
      (opTakesParam (Params.standard .comScanInc) op).toNat := by decide
  have hall' : ∀ op : Byte, ((Params.standard .pageSelect).arity op).val =
      (opTakesParam (Params.standard .pageSelect) op).toNat := by decide
  rw [arity_standard h.2, opTakesParam, classify_standard h.1]
  cases p.c0Class
  · exact hall op
  · exact hall' op

/-- Byte 0xC0 is COMSCANINC or no named class, as `C0_CLASS` says (R81). -/
theorem namedAt_C0 (h : p.opcodeMap = OpcodeMap.sh1107) :
    p.namedAt 0xC0 = if p.c0Class = .pageSelect then none else some .comScanInc := by
  rw [namedAt_standard h]
  cases p.c0Class <;> decide

theorem pageSelect_of_classify_C0 (h : p.opcodeMap = OpcodeMap.sh1107) (hcl : classify p 0xC0 = .setPage) :
    p.c0Class = .pageSelect := by
  obtain ⟨hn, -⟩ := classify_eq_setPage_iff.mp hcl
  rw [namedAt_C0 h] at hn
  split_ifs at hn with hk
  exact hk

end Standard

/-- An instruction made of the opcode and the byte after it is encoded by the bytes it was made of (R72, R76). -/
theorem encode_instrOf {p : Params} {op : Byte} {bs : List Byte} (hstd : p.standardTables)
    (hop : firstByte p (instrOf p op (bs.headD 0)) = op) (hlen : (p.arity op).val ≤ bs.length) :
    encode p (instrOf p op (bs.headD 0)) ++ bs.drop (p.arity op).val = op :: bs := by
  obtain ⟨ps, henc, hps, hhead⟩ := encode_command p (byteClass_instrOf p op (bs.headD 0))
  rw [henc, hop, List.cons_append]
  rw [hop] at hps hhead
  rw [arity_eq_opTakesParam hstd] at hps hhead hlen ⊢
  cases ht : opTakesParam p op with
  | false =>
    rw [ht] at hps
    rw [List.eq_nil_of_length_eq_zero hps]
    rfl
  | true =>
    rw [ht] at hps hhead hlen
    obtain ⟨q, rfl⟩ := List.length_eq_one_iff.mp hps
    obtain ⟨b, bs, rfl⟩ := List.exists_cons_of_length_pos hlen
    have hq : q = b := (hhead Nat.one_pos []).trans (paramByte_instrOf b ht)
    rw [hq]
    rfl

/-- Settles O20: the tables give no class two opcodes and every opcode the length its class reads. -/
theorem encodeOfDecode : Obligations.EncodeOfDecode := by
  intro p k bs i rest hstd hC0 hdec
  cases bs with
  | nil => cases hdec
  | cons op bs =>
    cases k with
    | control => cases hdec; exact ⟨rfl, rfl, congrArg (· :: _) (firstByte_ctrlOf p op)⟩
    | data => cases hdec; exact ⟨rfl, rfl, rfl⟩
    | command =>
      obtain ⟨hlen, hpos, rfl, rfl⟩ := decode_command_eq_ok_iff.mp hdec
      have hk := byteClass_instrOf p op (bs.headD 0)
      obtain ⟨hwf, hop⟩ := firstByte_instrOf (bs.headD 0) (hstd.1 ▸ opcodeMap_sh1107_nodup) hpos
        (fun hcl e => hC0 ⟨rfl, pageSelect_of_classify_C0 hstd.1 (e ▸ hcl), congrArg some e⟩)
      exact ⟨hwf, hk, encode_instrOf hstd hop hlen⟩

/-- A class has an encoding except COMSCANINC under `C0_CLASS = PageSelect` (R76, R152). -/
theorem encodesNamed_standard {p : Params} (h : p.standardTables) (c : NamedClass) :
    p.encodesNamed c = false ↔ c = .comScanInc ∧ p.c0Class = .pageSelect := by
  rw [Params.encodesNamed, opcodeOf_standard h.1, arity_standard h.2]
  cases p.c0Class <;> cases c <;> decide

/-- No row of R74 takes the byte of a cursor command. -/
theorem wellFormed_cursor {p : Params} (h : p.opcodeMap = OpcodeMap.sh1107) :
    (∀ n, wellFormed p (.setColLo n) = true) ∧ (∀ n, wellFormed p (.setColHi n) = true) ∧
    ∀ n, wellFormed p (.setPage n) = true := by
  simp only [wellFormed, namedAt_standard h]
  cases p.c0Class <;> decide

/-- Settles O18: the classes by the tables, the cursor commands by the gaps of the map, an opcode by its class. -/
theorem illFormedInstructions : Obligations.IllFormedInstructions := by
  intro p i hstd
  cases hn : i.namedClass with
  | some c =>
    have hi : i = .comScanInc ↔ c = .comScanInc := by cases i <;> cases hn <;> simp
    have hu : ∀ op, i ≠ .unrecognized op := by rintro op rfl; cases hn
    simp [wellFormed_named hn, encodesNamed_standard hstd, hi, hu]
  | none =>
    obtain ⟨hlo, hhi, hpage⟩ := wellFormed_cursor hstd.1
    obtain ⟨_, _, _, rfl⟩ | ⟨_, rfl⟩ | ⟨n, rfl⟩ | ⟨n, rfl⟩ | ⟨n, rfl⟩ | ⟨op, rfl⟩ := Instr.unnamed_cases hn
    · simp [wellFormed]
    · simp [wellFormed]
    · simp [hlo]
    · simp [hhi]
    · simp [hpage]
    · simp [← Bool.not_eq_true, wellFormed_unrecognized_iff]

/-- Settles O17: the map's row for 0xC0 counts under `ComScanInc` only. -/
theorem byteC0FollowsItsParameter : Obligations.ByteC0FollowsItsParameter := by
  intro p par hmap
  have hn := namedAt_C0 hmap
  constructor <;> intro hk <;> simp only [hk, reduceCtorEq, if_true, if_false] at hn
  · simp only [instrOf, classify_eq_named_iff.mpr hn, namedInstr]
  · have hcl := classify_eq_setPage_iff.mpr ⟨hn, by decide⟩
    have hop : p.opcodeOf .comScanInc = none := by rw [opcodeOf_standard hmap, hk]; decide
    simp only [instrOf, hcl, wellFormed, Params.encodesNamed, hop, and_true]
    decide

/-- Settles O16: the bytes outside the map and the cursor ranges, byte by byte. -/
theorem unrecognizedBytesAreTheListed : Obligations.UnrecognizedBytesAreTheListed := by
  intro p op hstd hk
  rw [classify_standard hstd.1, hk]
  refine ⟨?_, rfl⟩
  revert op
  decide

theorem decode_standard {p : Params} (h : p.standardTables) : decode p = decode (Params.standard p.c0Class) := by
  funext k bs
  cases bs with
  | nil => rfl
  | cons b rest =>
    have ht : opTakesParam p b = opTakesParam (Params.standard p.c0Class) b := by
      rw [opTakesParam, classify_standard h.1]
      rfl
    have hi : instrOf p b = instrOf (Params.standard p.c0Class) b := by
      funext par
      rw [instrOf, classify_standard h.1]
      rfl
    simp only [decode, ht, hi, arity_standard h.2]

/-- Settles O15: under the tables the decoder is closed, and reads each word. -/
theorem decodesSampleWords : Obligations.DecodesSampleWords := by
  intro p hstd hk
  rw [decode_standard hstd, hk]
  exact ⟨rfl, rfl, rfl, rfl, rfl, rfl, rfl, rfl, rfl, rfl, rfl, rfl⟩

end Sys2Proof

namespace Sys2Proof.Machine

/-! ### One byte of each kind (R70, R102) -/

section Kinds
variable {s : State} {b : Byte} {rest : List Event}

theorem State.byteClass_control (h : s.ctrlPending = true) : s.byteClass = .control := by
  simp [State.byteClass, h]

theorem State.byteClass_command (hp : s.ctrlPending = false) (hm : s.commandMode = true) : s.byteClass = .command := by
  simp [State.byteClass, hp, hm]

/-- A control byte runs the control instruction it is (R103). -/
theorem step_control (hin : s.inbox = .write b :: rest) (hc : s.byteClass = .control) :
    step s = andThen (exec (ctrlOf b) { s with inbox := rest }) fun t => .next (t.emit (.ack true)) := by
  have hc' : { s with inbox := rest }.byteClass = .control := hc
  rw [step_event hin, onEvent, onWrite, hc']

/-- A data byte runs the data instruction it is (R200). -/
theorem step_data (hin : s.inbox = .write b :: rest) (hc : s.byteClass = .data) :
    step s = andThen (exec (.data b) { s with inbox := rest }) fun t =>
      .next (t.endOfForwardedByte.emit (.ack true)) := by
  have hc' : { s with inbox := rest }.byteClass = .data := hc
  obtain ⟨t, ht⟩ := exec_next (.data b) { s with inbox := rest }
  rw [step_event hin, onEvent, onWrite, hc', ht]
  rfl

/-- A command byte goes to the assembler (R126). -/
theorem step_command (hin : s.inbox = .write b :: rest) (hc : s.byteClass = .command) :
    step s = andThen (assemble b { s with inbox := rest }) fun t =>
      .next (t.endOfForwardedByte.emit (.ack true)) := by
  have hc' : { s with inbox := rest }.byteClass = .command := hc
  rw [step_event hin, onEvent, onWrite, hc']
  cases assemble b { s with inbox := rest } <;> rfl

/-- The state with a command byte that is not the last of its command in the buffer (R121, R123). -/
def State.bufferByte (s : State) (b : Byte) (h : s.cmdIndex.val + 1 < 8) : State :=
  { s.append b with cmdIndex := ⟨s.cmdIndex.val + 1, h⟩ }

/-- A command byte that does not complete its command is buffered and acknowledged (R123). -/
theorem step_buffers (hin : s.inbox = .write b :: rest) (hc : s.byteClass = .command)
    (hlt : s.cmdIndex.val + 1 < (s.expectedWith b).val) : ∃ h : s.cmdIndex.val + 1 < 8,
      step s = .next ((({ s with inbox := rest } : State).bufferByte b h).endOfForwardedByte.emit (.ack true)) := by
  have hlt' : { s with inbox := rest }.cmdIndex.val + 1 < ({ s with inbox := rest }.expectedWith b).val := hlt
  rw [step_command hin hc, assemble_incomplete hlt']
  exact ⟨_, rfl⟩

/-- A command byte that completes its command has the buffer run, and resets the index (R122). -/
theorem step_completes (hin : s.inbox = .write b :: rest) (hc : s.byteClass = .command)
    (hle : (s.expectedWith b).val ≤ s.cmdIndex.val + 1) :
    step s = andThen (exec (s.append b).buffered ({ s with inbox := rest }.append b)) fun t =>
      .next ({ t with cmdIndex := 0 }.endOfForwardedByte.emit (.ack true)) := by
  have hle' : ¬ { s with inbox := rest }.cmdIndex.val + 1 < ({ s with inbox := rest }.expectedWith b).val :=
    Nat.not_lt.mpr hle
  obtain ⟨t, ht⟩ := exec_next (s.append b).buffered ({ s with inbox := rest }.append b)
  have hb : ({ s with inbox := rest }.append b).buffered = (s.append b).buffered := rfl
  rw [step_command hin hc, assemble_complete hle', hb, ht]
  rfl

end Kinds

/-- Settles O7: a byte with `ctrl_pending` set is a control byte, and runs CTRL with its bits 7 and 6. -/
theorem controlByteSetsModes : Obligations.ControlByteSetsModes := by
  refine ⟨fun _ _ _ _ => rfl, fun s b rest hin hp => ?_⟩
  rw [step_control hin (State.byteClass_control hp)]
  rfl

/-! ### The command in the buffer (R121, R140) -/

section Buffer
variable {s : State} {b : Byte} {i : Instr}

/-- The buffered bytes of the command in progress (R121). -/
def State.partialCommand (s : State) : List Byte := s.cmdBuf.toList.take s.cmdIndex.val

/-- The length expected once a byte has arrived is the length of the opcode then in the buffer (R120). -/
def State.LengthKnown (s : State) : Prop :=
  ∀ b, s.expectedWith b = (s.params.arity (s.append b).cmdBuf[0]).succ

theorem State.Inv.lengthKnown (hs : s.Inv) : s.LengthKnown := hs.expectedWith_eq

theorem State.lengthKnown_of_idle (h : s.cmdIndex = 0) : s.LengthKnown := by
  intro b
  simp [State.expectedWith, h]

/-- Buffering a byte that is not the last keeps the length known: the opcode is in the buffer (R120). -/
theorem State.LengthKnown.bufferByte (hs : s.LengthKnown) (h : s.cmdIndex.val + 1 < 8) :
    (s.bufferByte b h).LengthKnown := by
  intro b'
  have hne : (s.bufferByte b h).cmdIndex ≠ 0 := Fin.ne_of_val_ne (Nat.succ_ne_zero _)
  have hop : ((s.bufferByte b h).append b').cmdBuf[0] = (s.append b).cmdBuf[0] := by
    rw [State.append_cmdBuf, Vector.getElem_set_ne]
    · rfl
    · exact Nat.succ_ne_zero _
  rw [hop, State.expectedWith, if_neg hne]
  exact hs b

/-- The bytes up to the one that arrives are the buffer's, once it is appended. -/
theorem State.partialCommand_append (s : State) (b : Byte) :
    s.partialCommand ++ [b] = (s.append b).cmdBuf.toList.take (s.cmdIndex.val + 1) := by
  have hlen : s.cmdIndex.val < (s.append b).cmdBuf.toList.length := by simp
  rw [← List.take_concat_get' _ _ hlen, State.partialCommand]
  simp [Vector.toList_set, List.take_set_of_le]

theorem State.partialCommand_bufferByte (s : State) (b : Byte) (h : s.cmdIndex.val + 1 < 8) :
    (s.bufferByte b h).partialCommand = s.partialCommand ++ [b] :=
  (s.partialCommand_append b).symm

theorem toList_eq_cons_cons (v : Vector Byte 8) : v.toList = v[0] :: v[1] :: v.toList.drop 2 := by
  have hlen : v.toList.length = 8 := by simp
  rw [← Vector.getElem_toList, ← Vector.getElem_toList, List.getElem_cons_drop, List.getElem_cons_drop, List.drop_zero]
  all_goals omega

/-- When the command in progress, a byte and the bytes still to come decode with nothing left over, the length expected
at that byte is the length of them all (R72, R120). -/
theorem State.LengthKnown.expectedWith_eq {bs : List Byte} (hs : s.LengthKnown)
    (h : decode s.params .command (s.partialCommand ++ b :: bs) = .ok (i, [])) :
    (s.expectedWith b).val = s.cmdIndex.val + bs.length + 1 := by
  have hidx := s.cmdIndex.isLt
  rw [List.append_cons, State.partialCommand_append, toList_eq_cons_cons, List.take_succ_cons, List.cons_append,
    decode_command_eq_ok_iff] at h
  obtain ⟨hle, -, -, hdrop⟩ := h
  have hge := List.drop_eq_nil_iff.mp hdrop
  have harity := hs b
  simp only [List.length_append, List.length_take, List.length_cons, List.length_drop, Vector.length_toList] at hle hge
  rw [harity, Fin.val_succ]
  omega

/-- When the command in progress and the byte that arrives decode, the instruction is the one the buffer then holds
(R140). -/
theorem State.buffered_append_of_decode (h : decode s.params .command (s.partialCommand ++ [b]) = .ok (i, [])) :
    (s.append b).buffered = i := by
  rw [State.partialCommand_append, toList_eq_cons_cons, List.take_succ_cons, decode_command_eq_ok_iff] at h
  obtain ⟨hle, hpos, rfl, -⟩ := h
  cases hidx : s.cmdIndex.val with
  | succ n => rfl
  | zero =>
    rw [hidx, List.take_zero, List.length_nil] at hle
    refine instrOf_ignores_parameter _ _ _ _ ?_
    cases ht : opTakesParam s.params (s.append b).cmdBuf[0] with
    | false => exact ht
    | true => exact absurd (hpos ht) hle.not_gt

end Buffer

/-- A byte that ends a decoded command runs it, on the state with the byte in the buffer (R122, R126). -/
theorem step_decoded_command {s : State} {b : Byte} {rest : List Event} {i : Instr} (hin : s.inbox = .write b :: rest)
    (hc : s.byteClass = .command) (hlen : s.LengthKnown)
    (hd : decode s.params .command (s.partialCommand ++ [b]) = .ok (i, [])) :
    step s = andThen (exec i ({ s with inbox := rest }.append b)) fun t =>
      .next ({ t with cmdIndex := 0 }.endOfForwardedByte.emit (.ack true)) := by
  rw [step_completes hin hc (hlen.expectedWith_eq hd).le, State.buffered_append_of_decode hd]

/-- Settles O10, by the kind of the byte. -/
theorem stepRunsDecodedInstruction : Obligations.StepRunsDecodedInstruction := by
  intro s b rest i hs hin hd
  cases hc : s.byteClass <;> simp only [hc, State.pendingBytes] at hd ⊢
  case control => cases hd; exact step_control hin hc
  case command => exact step_decoded_command hin hc hs.lengthKnown hd
  case data => cases hd; exact step_data hin hc

/-- Settles O14: a command in progress expects at most two bytes, and NOP as an opcode one. -/
theorem nopByteResynchronises : Obligations.NopByteResynchronises := by
  intro s rest hs hstd hin hp hm
  have hle : (s.expectedWith 0xE3).val ≤ s.cmdIndex.val + 1 := by
    by_cases h0 : s.cmdIndex = 0
    · have hnop : ((Params.standard s.params.c0Class).arity 0xE3).val = 0 := rfl
      rw [State.expectedWith, if_pos h0, arity_standard hstd.2, Fin.val_succ, hnop]
      omega
    · have hpos := Fin.pos_iff_ne_zero.mpr h0
      rw [hs.lengthKnown 0xE3, Fin.val_succ, arity_eq_opTakesParam hstd]
      have := Bool.toNat_le (opTakesParam s.params (s.append 0xE3).cmdBuf[0])
      omega
  obtain ⟨t, ht⟩ := exec_next (s.append 0xE3).buffered ({ s with inbox := rest }.append 0xE3)
  refine ⟨_, by rw [step_completes hin (State.byteClass_command hp hm) hle, ht]; rfl, ?_⟩
  simp

theorem State.endOfForwardedByte_of_continuous {s : State} (h : s.continuous = true) : s.endOfForwardedByte = s :=
  if_pos h

/-! ### The bytes of a command, one after another (R72) -/

/-- The rest of a command's bytes, sent one after another in continuous command mode, run the command on the state with
the bytes in the buffer. -/
theorem run_rest_of_command {rest : List Event} {i : Instr} (bs : List Byte) (b : Byte) (s : State)
    (hi : i.byteClass ≠ .control) (hp : s.ctrlPending = false) (hm : s.commandMode = true)
    (hcont : s.continuous = true) (hlen : s.LengthKnown) (hin : s.inbox = writes (b :: bs) ++ rest)
    (hd : decode s.params .command (s.partialCommand ++ b :: bs) = .ok (i, [])) :
    ∃ u t, exec i u = .next t ∧ run (bs.length + 1) s = .next ({ t with cmdIndex := 0 }.emit (.ack true)) ∧
      u.cmdBuf.toList.take (s.cmdIndex.val + (bs.length + 1)) = s.partialCommand ++ b :: bs ∧
      u = { s with
        inbox := rest
        cmdBuf := u.cmdBuf
        cmdIndex := u.cmdIndex
        cmdExpected := u.cmdExpected
        outbox := s.outbox ++ List.replicate bs.length (.ack true) } := by
  have hc := State.byteClass_command hp hm
  induction bs generalizing b s with
  | nil =>
    obtain ⟨t, ht⟩ := exec_next i ({ s with inbox := rest }.append b)
    obtain ⟨-, htc, -⟩ := exec_keeps_modes ht hi
    refine ⟨_, t, ht, ?_, (s.partialCommand_append b).symm, ?_⟩
    · have hin : s.inbox = .write b :: rest := hin
      rw [List.length_nil, run_succ, step_decoded_command hin hc hlen hd, ht, andThen_next,
        State.endOfForwardedByte_of_continuous (by exact htc.trans hcont)]
      rfl
    · simp [State.append]
  | cons b' bs ih =>
    have hlt : s.cmdIndex.val + 1 < (s.expectedWith b).val := by
      rw [hlen.expectedWith_eq hd, List.length_cons]
      omega
    obtain ⟨h8, hstep⟩ := step_buffers hin hc hlt
    rw [State.endOfForwardedByte_of_continuous (by exact hcont)] at hstep
    have hpart : s.partialCommand ++ b :: b' :: bs = (s.bufferByte b h8).partialCommand ++ b' :: bs := by
      rw [State.partialCommand_bufferByte, List.append_assoc, List.singleton_append]
    obtain ⟨u, t, hu, hrun, hbuf, hframe⟩ :=
      ih b' ((({ s with inbox := writes (b' :: bs) ++ rest } : State).bufferByte b h8).emit (.ack true)) hp hm hcont
        (hlen.bufferByte h8) rfl (hpart ▸ hd) hc
    refine ⟨u, t, hu, ?_, ?_, hframe.trans ?_⟩
    · rw [List.length_cons, run_succ, hstep]
      exact hrun
    · rw [hpart, List.length_cons, Nat.add_comm (bs.length + 1) 1, ← Nat.add_assoc]
      exact hbuf
    · simp [State.emit, State.bufferByte, List.replicate_succ]

/-- Settles O13: the bytes of a command decode to it. -/
theorem commandBytesRunTheCommand : Obligations.CommandBytesRunTheCommand := by
  intro s i rest hwf hi hready hin
  obtain ⟨hp, hm, hcont, hidle⟩ := hready
  have hd := decodeOfEncode s.params i [] hwf
  obtain ⟨ps, henc, -⟩ := encode_command s.params hi
  rw [hi, List.append_nil] at hd
  have hpart : s.partialCommand = [] := by rw [State.partialCommand, hidle]; rfl
  rw [henc] at hin hd ⊢
  have := run_rest_of_command ps _ s (by rw [hi]; decide) hp hm hcont (State.lengthKnown_of_idle hidle) hin
    (by rw [hpart]; exact hd)
  simpa [hpart, hidle] using this

/-! ### GOTO (R83) -/

/-- What the next data byte is stored by: the page, the column and pixel memory (R201). -/
def State.cursors (s : State) : Page × Column × Memory := (s.activePage, s.activeColumn, s.pixmem)

/-- A cursor command changes the cursors by a function of them (R166 to R168). -/
def MovesCursors (i : Instr) (f : Page × Column × Memory → Page × Column × Memory) : Prop :=
  ∀ s t : State, exec i s = .next t → t.cursors = f s.cursors

theorem movesCursors_setPage (n : BitVec 4) : MovesCursors (.setPage n) fun (_, c, m) => (n, c, m) := by
  intro s t h
  injection h with h
  subst h
  simp [State.cursors]

theorem movesCursors_setColLo (n : BitVec 4) :
    MovesCursors (.setColLo n) fun (pg, c, m) => (pg, c.extractLsb' 4 3 ++ n, m) := by
  intro s t h
  injection h with h
  subst h
  simp [State.cursors, columnLow_eq]

theorem movesCursors_setColHi (n : BitVec 3) :
    MovesCursors (.setColHi n) fun (pg, c, m) => (pg, n ++ c.extractLsb' 0 4, m) := by
  intro s t h
  injection h with h
  subst h
  simp [State.cursors, columnHigh_eq]

/-- A command sent from an idle parser in continuous command mode moves the cursors and leaves the parser idle. -/
theorem run_instrWrites_cursors {p : Params} {s : State} {i : Instr} {rest : List Event}
    {f : Page × Column × Memory → Page × Column × Memory} (hf : MovesCursors i f)
    (hwf : wellFormed p i = true) (hi : i.byteClass = .command) (hp : s.params = p) (hready : s.commandReady)
    (hin : s.inbox = instrWrites p i ++ rest) :
    ∃ v, run (encode p i).length s = .next v ∧ v.cursors = f s.cursors ∧ v.params = p ∧ v.commandReady ∧
      v.inbox = rest := by
  subst hp
  obtain ⟨u, t, hex, hrun, -, hu⟩ := commandBytesRunTheCommand s i rest hwf hi hready hin
  obtain ⟨hp, hm, hcont, -⟩ := hready
  obtain ⟨htp, htc, htm⟩ := exec_keeps_modes hex (by rw [hi]; decide)
  obtain ⟨hpar, -, -, -, -, -, -, hinbox⟩ := exec_keeps hex
  have hcur : u.cursors = s.cursors := by rw [hu]; rfl
  rw [hu] at htp htc htm hpar hinbox
  exact ⟨_, hrun, (hf u t hex).trans (congrArg f hcur), hpar,
    ⟨htp.trans hp, htm.trans hm, htc.trans hcont, rfl⟩, hinbox⟩

/-- A cursor command is one byte (R73, R76). -/
theorem length_encode_cursor {p : Params} (h : p.standardTables) :
    (∀ n, (encode p (.setColLo n)).length = 1) ∧ (∀ n, (encode p (.setColHi n)).length = 1) ∧
    ∀ n, (encode p (.setPage n)).length = 1 := by
  obtain ⟨hlo, hhi, hpage⟩ := wellFormed_cursor h.1
  refine ⟨fun n => ?_, fun n => ?_, fun n => ?_⟩ <;>
    rw [Laws.EncodeLength.command p _ rfl, arity_eq_opTakesParam h, opTakesParam, firstByte]
  · rw [classify_setColLo (Option.isNone_iff_eq_none.mp (hlo n))]; rfl
  · rw [classify_setColHi (Option.isNone_iff_eq_none.mp (hhi n))]; rfl
  · rw [classify_setPage (Option.isNone_iff_eq_none.mp (hpage n))]; rfl

/-- A column is its high bits and its low nibble (R83). -/
theorem column_halves (c : Column) : c.extractLsb' 4 3 ++ c.extractLsb' 0 4 = c := by
  revert c; decide

/-- Settles O52: three one-byte commands, each from an idle parser; the last two write the two parts of the column. -/
theorem gotoSetsTheCursors : Obligations.GotoSetsTheCursors := by
  intro s pg c rest hstd hready hin
  obtain ⟨hlo, hhi, hpage⟩ := wellFormed_cursor hstd.1
  obtain ⟨llo, lhi, lpage⟩ := length_encode_cursor hstd
  simp only [goto, setCol, List.flatMap_cons, List.flatMap_nil, List.append_assoc, List.nil_append] at hin
  obtain ⟨s₁, r₁, c₁, p₁, ready₁, in₁⟩ :=
    run_instrWrites_cursors (movesCursors_setPage pg) (hpage pg) rfl rfl hready hin
  obtain ⟨s₂, r₂, c₂, p₂, ready₂, in₂⟩ := run_instrWrites_cursors (movesCursors_setColLo _) (hlo _) rfl p₁ ready₁ in₁
  obtain ⟨s₃, r₃, c₃, -, ready₃, in₃⟩ := run_instrWrites_cursors (movesCursors_setColHi _) (hhi _) rfl p₂ ready₂ in₂
  have hrun : run 3 s = .next s₃ := by
    rw [lpage] at r₁
    rw [llo] at r₂
    rw [lhi] at r₃
    rw [run_add 1 2, r₁, andThen_next, run_add 1 1, r₂, andThen_next, r₃]
  rw [c₂, c₁] at c₃
  simp only [State.cursors, BitVec.extractLsb'_append_eq_right, column_halves, Prod.mk.injEq] at c₃
  obtain ⟨hpg, hc, hmem⟩ := c₃
  exact ⟨s₃, hrun, hpg, hc, hmem, ready₃, in₃⟩

end Sys2Proof.Machine
end

section
/-! PROOF. The statements of 40_receiver.md: what each bus event answers (R100, R101, R105), the receiver's modes after
a `Write` (R104, R107), and that every sequence of bus events completes (R250). -/

namespace Sys2Proof.Machine

/-! ### The answers of an instruction hold no acknowledge (R101) -/

/-- The outbox grows from `s` to `t`, by no acknowledge. -/
def State.AnswersWithoutAck (s t : State) : Prop :=
  ∃ out, t.outbox = s.outbox ++ out ∧ ∀ v, Output.ack v ∉ out

theorem State.AnswersWithoutAck.of_outbox_eq {s t : State} (h : t.outbox = s.outbox) : s.AnswersWithoutAck t :=
  ⟨[], by rw [h, List.append_nil], fun _ => List.not_mem_nil⟩

theorem State.AnswersWithoutAck.trans {s t u : State} (hst : s.AnswersWithoutAck t) (htu : t.AnswersWithoutAck u) :
    s.AnswersWithoutAck u := by
  obtain ⟨out, ht, hout⟩ := hst
  obtain ⟨out', hu, hout'⟩ := htu
  exact ⟨out ++ out', by rw [hu, ht, List.append_assoc], fun v hv =>
    (List.mem_append.mp hv).elim (hout v) (hout' v)⟩

/-- A render request answers at most an `ArmTimer` (R220). -/
theorem State.answersWithoutAck_requestRender (s : State) : s.AnswersWithoutAck s.requestRender := by
  unfold State.requestRender
  split
  · exact .of_outbox_eq rfl
  · exact ⟨[.armTimer s.params.renderDelay], rfl, by simp⟩

theorem State.answersWithoutAck_finishCommand (i : Instr) (s : State) : s.AnswersWithoutAck (s.finishCommand i) := by
  rw [State.finishCommand_eq]
  split
  · exact s.answersWithoutAck_requestRender
  · exact .of_outbox_eq rfl

/-- No instruction acknowledges: a control byte answers nothing, a data byte requests a render, and a command ends in
`finishCommand`, after a `Diag` when its opcode is unrecognized (R140, R205, R251). -/
theorem exec_answersWithoutAck {i : Instr} {s t : State} (h : exec i s = .next t) : s.AnswersWithoutAck t := by
  cases i <;> injection h with h <;> subst h
  case ctrl => exact .of_outbox_eq rfl
  case data d =>
    have hstore : s.AnswersWithoutAck (s.memWrite s.targetAddr d).advance := .of_outbox_eq (by simp)
    exact hstore.trans (State.answersWithoutAck_requestRender _)
  case unrecognized op =>
    have hdiag : s.AnswersWithoutAck (s.emit (.diag op)) := ⟨[.diag op], rfl, by simp⟩
    exact hdiag.trans (State.answersWithoutAck_finishCommand _ _)
  all_goals exact State.answersWithoutAck_finishCommand _ _

/-! ### What a `Write` does, whatever the kind of its byte (R102) -/

/-- A `Write` ends with its acknowledge, and gives no other (R101). -/
theorem onWrite_acknowledges (b : Byte) (s : State) :
    ∃ t, onWrite b s = .next (t.emit (.ack true)) ∧ s.AnswersWithoutAck t := by
  obtain ⟨-, e⟩ | ⟨-, u, hu, e⟩ | ⟨-, _, -, e⟩ | ⟨-, -, u, hu, e⟩ := onWrite_cases b s
  · exact ⟨_, e, .of_outbox_eq rfl⟩
  · exact ⟨_, e, (exec_answersWithoutAck hu).trans (.of_outbox_eq (by simp))⟩
  · exact ⟨_, e, .of_outbox_eq (by simp)⟩
  · have happend : s.AnswersWithoutAck (s.append b) := .of_outbox_eq rfl
    exact ⟨_, e, (happend.trans (exec_answersWithoutAck hu)).trans (.of_outbox_eq (by simp))⟩

/-- A `Write` leaves the events still to come. -/
theorem onWrite_inbox {b : Byte} {s t : State} (h : onWrite b s = .next t) : t.inbox = s.inbox := by
  obtain ⟨-, e⟩ | ⟨-, u, hu, e⟩ | ⟨-, _, -, e⟩ | ⟨-, -, u, hu, e⟩ := onWrite_cases b s <;>
    obtain rfl := Host.Outcome.next.inj (e.symm.trans h)
  case inl => rfl
  case inr.inr.inl => simp
  all_goals
    obtain ⟨-, -, -, -, -, -, -, hin⟩ := exec_keeps hu
    simpa using hin

/-- The receiver's three modes (R37). -/
def State.modes (s : State) : Bool × Bool × Bool := (s.ctrlPending, s.commandMode, s.continuous)

/-- The end of a byte that was forwarded with the modes of `s`: a control byte is pending again exactly in single-shot
mode (R104). -/
theorem State.modes_endOfForwardedByte {s u : State} (h : u.modes = s.modes) (hp : s.ctrlPending = false) :
    u.endOfForwardedByte.modes = (!s.continuous, s.commandMode, s.continuous) := by
  simp only [State.modes, Prod.mk.injEq] at h
  obtain ⟨hpend, hmode, hcont⟩ := h
  simp [State.modes, hpend, hmode, hcont, hp]

/-- An instruction that is no control byte keeps the modes (R103). -/
theorem exec_modes {i : Instr} {s t : State} (h : exec i s = .next t) (hc : i.byteClass ≠ .control) :
    t.modes = s.modes := by
  obtain ⟨hp, hcont, hm⟩ := exec_keeps_modes h hc
  rw [State.modes, hp, hcont, hm, State.modes]

/-- A byte is a control byte only while one is pending (R70). -/
theorem State.ctrlPending_of_control {s : State} (h : s.byteClass = .control) : s.ctrlPending = true := by
  by_contra hp
  cases hm : s.commandMode <;> simp [State.byteClass, hp, hm] at h

/-- The modes after a forwarded byte: data, a command byte that is buffered, or one that completes a command (R104). -/
theorem onWrite_modes_forwarded {b : Byte} {s t : State} (h : onWrite b s = .next t) (hp : s.ctrlPending = false) :
    t.modes = (!s.continuous, s.commandMode, s.continuous) := by
  obtain ⟨hc, -⟩ | ⟨-, u, hu, e⟩ | ⟨-, h8, -, e⟩ | ⟨-, -, u, hu, e⟩ := onWrite_cases b s
  case inl => exact absurd (State.ctrlPending_of_control hc) (by simp [hp])
  all_goals obtain rfl := Host.Outcome.next.inj (e.symm.trans h)
  case inr.inl => exact State.modes_endOfForwardedByte (exec_modes hu nofun) hp
  case inr.inr.inl => exact State.modes_endOfForwardedByte (u := s.bufferByte b h8) rfl hp
  case inr.inr.inr =>
    have hcommand := exec_modes hu (by rw [buffered_byteClass]; decide)
    exact State.modes_endOfForwardedByte (u := { u with cmdIndex := 0 }) hcommand hp

/-! ### The steps on bus events (R10, R100, R101, R105) -/

/-- Settles O4: the event is `onConnect`, which sets the one flag. -/
theorem connectWritesOnlyCtrlPending : Obligations.ConnectWritesOnlyCtrlPending := by
  intro s rest hin
  rw [step_event hin]
  rfl

/-- Settles O5: the event is `onRead`, which answers the placeholder. -/
theorem readAnswersPlaceholder : Obligations.ReadAnswersPlaceholder := by
  intro s rest hin
  rw [step_event hin]
  rfl

/-- Settles O6, by the cases of a `Write`. -/
theorem everyWriteAcknowledged : Obligations.EveryWriteAcknowledged := by
  intro s b rest hin
  obtain ⟨t, ht, out, hout, hack⟩ := onWrite_acknowledges b { s with inbox := rest }
  exact ⟨_, out, (step_event hin).trans ht, by rw [State.emit_outbox, hout], hack⟩

/-- Settles O8: a control byte writes the modes; any other byte ends as a forwarded byte. -/
theorem receiverModeTable : Obligations.ReceiverModeTable := by
  intro s b rest hin
  obtain ⟨t, ht⟩ := onWrite_next b { s with inbox := rest }
  have hstep : step s = .next t := (step_event hin).trans ht
  refine ⟨t, hstep, fun hp => ?_, fun hp => ?_⟩
  · obtain rfl := Host.Outcome.next.inj ((controlByteSetsModes.2 s b rest hin hp).symm.trans hstep)
    exact ⟨rfl, rfl, rfl⟩
  · simpa [State.modes] using onWrite_modes_forwarded ht hp

/-- A step on a bus event completes and takes just that event (R10, R250). -/
theorem step_bus_event {s : State} {e : Event} {rest : List Event} (hin : s.inbox = e :: rest) (he : e.isBus = true) :
    ∃ t, step s = .next t ∧ t.inbox = rest := by
  cases e with
  | connect => exact ⟨_, connectWritesOnlyCtrlPending s rest hin, rfl⟩
  | read => exact ⟨_, readAnswersPlaceholder s rest hin, rfl⟩
  | write b =>
    obtain ⟨t, ht⟩ := onWrite_next b { s with inbox := rest }
    exact ⟨t, (step_event hin).trans ht, onWrite_inbox ht⟩
  | timerFire => cases he

/-- Settles O9: the command byte leaves a control byte pending, so the next byte is one. -/
theorem singleShotByteNeedsControl : Obligations.SingleShotByteNeedsControl := by
  intro s op b rest hin hp _ hcont
  obtain ⟨t, ht, hinbox⟩ := step_bus_event hin rfl
  obtain ⟨t', ht', -, hfwd⟩ := receiverModeTable s op _ hin
  obtain rfl := Host.Outcome.next.inj (ht'.symm.trans ht)
  have hpt : t'.ctrlPending = true := by rw [(hfwd hp).1, hcont]; rfl
  exact ⟨t', _, ht, hpt, controlByteSetsModes.2 t' b rest hinbox hpt, rfl⟩

/-- The steps that take a list of bus events all complete, by induction on the list. -/
theorem run_bus_events (es : List Event) (s : State) (hin : s.inbox = es) (hbus : ∀ e ∈ es, e.isBus = true) :
    ∃ t, run es.length s = .next t ∧ t.inbox = [] := by
  induction es generalizing s with
  | nil => exact ⟨s, rfl, hin⟩
  | cons e rest ih =>
    obtain ⟨he, hrest⟩ := List.forall_mem_cons.mp hbus
    obtain ⟨u, hu, hinbox⟩ := step_bus_event hin he
    obtain ⟨t, ht, hempty⟩ := ih u hinbox hrest
    exact ⟨t, by rw [List.length_cons, run_succ, hu, andThen_next, ht], hempty⟩

/-- Settles O47, on the state's whole inbox. -/
theorem everyByteSequenceAccepted : Obligations.EveryByteSequenceAccepted := by
  intro s hbus
  exact run_bus_events s.inbox s rfl hbus

end Sys2Proof.Machine
end

section
/-! PROOF. The statements of 41_assembler.md about the buffer: a byte that does not complete its command (R123), the
events that leave the command in progress alone (R124), and the "not implemented" commands on the bus (R157). -/

namespace Sys2Proof.Machine

/-! ### A byte that does not complete its command (R121, R123) -/

/-- A byte is a command byte only while no control byte is pending (R70). -/
theorem State.ctrlPending_of_command {s : State} (h : s.byteClass = .command) : s.ctrlPending = false :=
  Bool.eq_false_iff.mpr fun hp => nomatch (State.byteClass_control hp).symm.trans h

/-- The append replaces the buffer's byte at the index, and no other (R121). -/
theorem State.append_cmdBuf_getElem (s : State) (b : Byte) (k : Nat) (h : k < 8) :
    (s.append b).cmdBuf[k] = if k = s.cmdIndex.val then b else s.cmdBuf[k] := by
  simp only [State.append_cmdBuf, Vector.getElem_set, eq_comm]

/-- Settles O11: the step is the append, the end of a forwarded byte and the acknowledge. -/
theorem incompleteCommandOnlyBuffers : Obligations.IncompleteCommandOnlyBuffers := by
  intro s b rest hin hc hlt
  obtain ⟨h8, hstep⟩ := step_buffers hin hc hlt
  refine ⟨_, hstep, ?_⟩
  have hbuf := State.append_cmdBuf_getElem { s with inbox := rest } b
  have hp := State.ctrlPending_of_command hc
  simpa [State.bufferByte, State.sameRegisters, State.expectedWith, hp] using hbuf

/-! ### The command in progress (R124) -/

/-- The parser's fields: how far the command in progress has come, its length and its bytes (R38 to R40). -/
def State.parser (s : State) : Fin 8 × Fin 9 × Vector Byte 8 := (s.cmdIndex, s.cmdExpected, s.cmdBuf)

/-- No meaning touches the command in progress: the assembler alone does. -/
theorem exec_parser {i : Instr} {s t : State} (h : exec i s = .next t) : t.parser = s.parser := by
  obtain ⟨-, -, -, -, hbuf, hidx, hexp, -⟩ := exec_keeps h
  rw [State.parser, hbuf, hidx, hexp, State.parser]

/-- The end of a byte's handling, forwarded and acknowledged, leaves the parser alone (R101, R104). -/
theorem State.parser_endOfForwardedByte_emit (s : State) (o : Output) :
    (s.endOfForwardedByte.emit o).parser = s.parser := by
  simp [State.parser]

/-- A control byte and a data byte leave the command in progress alone (R124). -/
theorem onWrite_parser {b : Byte} {s t : State} (h : onWrite b s = .next t) (hc : s.byteClass ≠ .command) :
    t.parser = s.parser := by
  obtain ⟨-, e⟩ | ⟨-, u, hu, e⟩ | ⟨hcmd, -⟩ | ⟨hcmd, -⟩ := onWrite_cases b s
  · obtain rfl := Host.Outcome.next.inj (e.symm.trans h)
    rfl
  · obtain rfl := Host.Outcome.next.inj (e.symm.trans h)
    exact (u.parser_endOfForwardedByte_emit _).trans (exec_parser hu)
  · exact absurd hcmd hc
  · exact absurd hcmd hc

/-- Only a step on a command byte touches the command in progress, by the cases of a step (R10, R124). -/
theorem step_parser {s t : State} (h : step s = .next t)
    (hc : ∀ b rest, s.inbox = .write b :: rest → s.byteClass ≠ .command) : t.parser = s.parser := by
  obtain ⟨-, -, rfl⟩ | ⟨-, -, rfl⟩ | ⟨rest, -, rfl⟩ | ⟨rest, -, rfl⟩ | ⟨rest, -, -, rfl⟩ | ⟨b, rest, hin, hw⟩ :=
    step_cases h
  case inr.inr.inr.inr.inr => exact onWrite_parser (s := { s with inbox := rest }) hw (hc b rest hin)
  all_goals rfl

/-- Settles O12: the three fields are the parser's. -/
theorem onlyCommandBytesTouchTheCommand : Obligations.OnlyCommandBytesTouchTheCommand := by
  intro s t h hc
  simpa only [State.parser, Prod.mk.injEq] using step_parser h hc

/-! ### The "not implemented" commands on the bus (R157) -/

section NotImplemented
variable {i : Instr} (h : notImplemented i = true)
include h

theorem byteClass_of_notImplemented : i.byteClass = .command := by
  cases i
  case setDispOffset | setMux | setVcomDesel | setComPins | allOnResume | allOnForced => rfl
  all_goals cases h

/-- Each of the six commands ends with no render request and writes nothing (R157 to R163). -/
theorem exec_of_notImplemented (s : State) : exec i s = .next s := by
  cases i
  case setDispOffset | setMux | setVcomDesel | setComPins | allOnResume | allOnForced => rfl
  all_goals cases h

end NotImplemented

/-- Settles O27: the bytes of the command run it, and it leaves the state with its bytes in the buffer as it is. -/
theorem notImplementedCommandsOnTheBus : Obligations.NotImplementedCommandsOnTheBus := by
  intro s i rest hni hwf hready hin
  have hi := byteClass_of_notImplemented hni
  obtain ⟨u, t, hex, hrun, hbuf, hu⟩ := commandBytesRunTheCommand s i rest hwf hi hready hin
  obtain rfl := Host.Outcome.next.inj ((exec_of_notImplemented hni u).symm.trans hex)
  obtain ⟨hp, hm, hcont, -⟩ := hready
  have hacks : List.replicate ((encode s.params i).length - 1) (Output.ack true) ++ [.ack true] =
      List.replicate (encode s.params i).length (.ack true) := by
    rw [← List.replicate_succ', Laws.EncodeLength.command s.params i hi, Nat.add_sub_cancel_left, Nat.add_comm]
  refine ⟨_, hrun, ?_⟩
  rw [hu]
  exact ⟨⟨rfl, rfl, rfl, rfl, rfl, rfl, rfl, rfl, rfl, rfl, rfl, rfl, rfl, rfl⟩, rfl, rfl, rfl, rfl,
    ⟨hp, hm, hcont, rfl⟩, rfl, hbuf, by rw [State.emit_outbox, List.append_assoc, hacks]⟩

end Sys2Proof.Machine
end

section
/-! PROOF. The statements of 42_commands.md: what each command writes, whether it requests a render and what it leaves
alone (R140 to R170), and what the frame shows after the commands that scroll, invert or remap (R147, R156, R281). -/

namespace Sys2Proof.Machine

/-! ### The result of a command, by its two flags (R140, R141) -/

section Flags
variable {i : Instr} {s u : State} (hexec : exec i s = .next (u.finishCommand i))
include hexec

/-- A command that forces its redraw requests a render in every state (R145). -/
theorem exec_of_forced (hf : renderForced i = true) : exec i s = .next (u.armed true) := by
  rw [hexec, State.finishCommand_armed, hf, Bool.or_true]

/-- A command that does not force its redraw leaves it to its flag and to the display. -/
theorem exec_of_unforced (hf : renderForced i = false) :
    exec i s = .next (u.armed (redrawNeeded u.params i && u.displayOn)) := by
  rw [hexec, State.finishCommand_armed, hf, Bool.or_false]

/-- A command that needs a redraw without forcing it requests a render exactly when the display is on. -/
theorem exec_of_needed (hn : redrawNeeded u.params i = true) (hf : renderForced i = false) :
    exec i s = .next (u.armed u.displayOn) := by
  rw [exec_of_unforced hexec hf, hn, Bool.true_and]

/-- A command that needs no redraw leaves just what it wrote. -/
theorem exec_of_unneeded (hn : redrawNeeded u.params i = false) (hf : renderForced i = false) :
    exec i s = .next u := by
  rw [exec_of_unforced hexec hf, hn, Bool.false_and, State.armed_false]

end Flags

/-! ### Results, completion and frame (R142 to R170) -/

/-- `clock_divider` after SETCLKDIV (R150). -/
theorem clockOf_eq (p : Byte) : clockOf p = BitVec.ofNat 8 (1 + p.toNat % 16) := by
  rw [← clockOf_toNat, BitVec.ofNat_toNat, BitVec.setWidth_eq]

/-- Settles O21: each command writes its registers and ends as one that needs a redraw. -/
theorem parameterCommandsResults : Obligations.ParameterCommandsResults := by
  intro p s
  rw [← clockOf_eq, ← phase1Of_eq, ← phase2Of_eq]
  refine ⟨?_, ?_, ?_, ?_⟩ <;> exact exec_of_needed rfl rfl rfl

/-- Settles O22: both commands force their redraw. -/
theorem displayCommandsResults : Obligations.DisplayCommandsResults := by
  intro s
  constructor <;> exact exec_of_forced rfl rfl

/-- What a request made leaves in the render flag and the outputs (R220). -/
theorem State.armed_true_arms_once (s : State) :
    (s.armed true).redrawPending = true ∧
    (s.redrawPending = true → (s.armed true).outbox = s.outbox) ∧
    (s.redrawPending = false → (s.armed true).outbox = s.outbox ++ [.armTimer s.params.renderDelay]) := by
  rw [State.armed_eq, if_pos rfl]
  exact ⟨s.requestRender_redrawPending, fun h => by simp [h], fun h => by simp [h]⟩

/-- Settles O23: both commands leave a state that has requested a render, whatever `display_on` was. -/
theorem displayCommandsAlwaysRequest : Obligations.DisplayCommandsAlwaysRequest := by
  intro s i hi
  obtain ⟨hoff, hon⟩ := displayCommandsResults s
  obtain rfl | rfl := hi
  · exact ⟨_, hoff, State.armed_true_arms_once _⟩
  · exact ⟨_, hon, State.armed_true_arms_once _⟩

/-- Settles O24: each command writes its field and ends as one that needs a redraw. -/
theorem flagCommandsResults : Obligations.FlagCommandsResults := by
  intro s
  refine ⟨?_, ?_, ?_, ?_, ?_, ?_, ?_, ?_⟩ <;> exact exec_of_needed rfl rfl rfl

/-- Settles O25: of the three, SETPAGE alone needs a redraw. -/
theorem cursorCommandsResults : Obligations.CursorCommandsResults := by
  intro s
  refine ⟨fun n => ?_, fun n => ?_, fun n => ?_⟩
  · rw [← columnLow_eq]
    exact exec_of_unneeded rfl rfl rfl
  · rw [← columnHigh_eq]
    exact exec_of_unneeded rfl rfl rfl
  · exact exec_of_needed rfl rfl rfl

/-- Settles O26, command by command. -/
theorem notImplementedCommandsChangeNothing : Obligations.NotImplementedCommandsChangeNothing := by
  intro s p
  refine ⟨?_, ?_, ?_, ?_, ?_, ?_⟩ <;> exact exec_of_notImplemented rfl s

/-- Settles O28: neither command forces its redraw, and the parameters of D7 say whether it needs one. -/
theorem nopAndUnrecognizedResults : Obligations.NopAndUnrecognizedResults := by
  intro s op
  exact ⟨exec_of_unforced rfl rfl, exec_of_unforced rfl rfl⟩

/-! ### What the frame shows after a command -/

/-- A render reads nothing a request writes, made or not made (R220, R224). -/
@[simp] theorem State.armed_renderPixel (s : State) (r : Bool) (x y : Nat) :
    (s.armed r).renderPixel x y = s.renderPixel x y := rfl

/-- States that render alike leave the same frame when the timer fires (R223). -/
theorem State.fireTimer_frame_eq {s t : State} (h : ∀ x y, t.renderPixel x y = s.renderPixel x y) :
    t.fireTimer.frame = s.fireTimer.frame := by
  simp only [State.fireTimer_frame, h]

/-- Settles O42: after both commands a render reads the state with `invert` clear, as it was. -/
theorem invertThenNormalRestoresTheFrame : Obligations.InvertThenNormalRestoresTheFrame := by
  intro s hinv
  obtain ⟨-, hinvert, -⟩ := flagCommandsResults s
  obtain ⟨hnormal, -⟩ := flagCommandsResults ({ s with invert := true }.armed s.displayOn)
  refine ⟨_, _, hinvert, hnormal, State.fireTimer_frame_eq fun x y => ?_⟩
  have hclear : { s with invert := false } = s := by rw [← hinv]
  calc State.renderPixel _ x y
    _ = { s with invert := false }.renderPixel x y := rfl
    _ = s.renderPixel x y := by rw [hclear]

/-- The renderer does not read `segment_remap`: the flag only steers the data writer (R201, R281). -/
theorem State.renderPixel_segmentRemap (s : State) (b : Bool) (x y : Nat) :
    { s with segmentRemap := b }.renderPixel x y = s.renderPixel x y := rfl

/-- Settles O44: both commands write the one flag, which the renderer does not read. -/
theorem segmentRemapMovesNothingStored : Obligations.SegmentRemapMovesNothingStored := by
  intro s t h
  have ht : ∃ b, t = { s with segmentRemap := b }.armed s.displayOn := by
    obtain ⟨-, -, -, -, -, -, h0, h1⟩ := flagCommandsResults s
    obtain h | h := h
    · exact ⟨false, Host.Outcome.next.inj (h.symm.trans h0)⟩
    · exact ⟨true, Host.Outcome.next.inj (h.symm.trans h1)⟩
  obtain ⟨b, rfl⟩ := ht
  exact ⟨rfl, fun x y => by rw [State.armed_renderPixel, State.renderPixel_segmentRemap]⟩

/-! ### The start line scrolls (R156, R225, R226) -/

/-- The row shown at `y` depends on `y + start_line` modulo `W` alone, mirrored or not (R225, R226). -/
theorem State.virtualY_startLine (s : State) {l : Byte} {y y' : Nat}
    (h : (y' + l.toNat) % W = (y + s.startLine.toNat) % W) :
    { s with startLine := l }.virtualY y' = s.virtualY y := by
  simp only [W] at h
  simp only [State.virtualY, State.rowsY, State.scrollY, W, H]
  split <;> omega

/-- The start line moves a pixel through the row shown, and through nothing else (R223 to R228). -/
theorem State.renderPixel_startLine (s : State) {l : Byte} {x y y' : Nat}
    (h : (y' + l.toNat) % W = (y + s.startLine.toNat) % W) :
    { s with startLine := l }.renderPixel x y' = s.renderPixel x y := by
  unfold State.renderPixel
  rw [s.virtualY_startLine h]
  rfl

/-- Settles O39: each of the three changes leaves `y + start_line` the same modulo 128. -/
theorem startLineScrollsCyclically : Obligations.StartLineScrollsCyclically := by
  intro s x y
  refine ⟨s.renderPixel_startLine ?_, s.renderPixel_startLine (l := s.startLine) ?_, s.renderPixel_startLine ?_⟩
  · simp only [W, BitVec.toNat_add, BitVec.reduceToNat]
    omega
  · simp only [W]
    omega
  · rfl

/-! ### Only DISPLAYON turns the display on (R144, R275) -/

/-- An instruction that turns the display on is DISPLAYON. -/
theorem eq_displayOn_of_exec {i : Instr} {s t : State} (h : exec i s = .next t) (hs : s.displayOn = false)
    (ht : t.displayOn = true) : i = .displayOn := by
  obtain rfl | rfl := exec_displayOn_writer h (by simp [hs, ht])
  · obtain rfl := Host.Outcome.next.inj ((displayCommandsResults s).1.symm.trans h)
    cases ht
  · rfl

/-- A `Write` that turns the display on completes DISPLAYON, by the cases of a `Write`. -/
theorem onWrite_turns_display_on {b : Byte} {s t : State} (h : onWrite b s = .next t) (hs : s.displayOn = false)
    (ht : t.displayOn = true) :
    s.byteClass = .command ∧ (s.expectedWith b).val ≤ s.cmdIndex.val + 1 ∧ (s.append b).buffered = .displayOn := by
  obtain ⟨-, e⟩ | ⟨-, u, hu, e⟩ | ⟨-, _, -, e⟩ | ⟨hc, hlen, u, hu, e⟩ := onWrite_cases b s <;>
    obtain rfl := Host.Outcome.next.inj (e.symm.trans h)
  case inl => simp [hs] at ht
  case inr.inl => exact nomatch eq_displayOn_of_exec hu hs (by simpa using ht)
  case inr.inr.inl => simp [hs] at ht
  case inr.inr.inr => exact ⟨hc, hlen, eq_displayOn_of_exec hu hs (by simpa using ht)⟩

/-- Settles O50, by the cases of a step: of the events only a `Write` runs an instruction (R10). -/
theorem onlyDisplayOnTurnsTheDisplayOn : Obligations.OnlyDisplayOnTurnsTheDisplayOn := by
  intro s t h hs ht
  obtain ⟨-, -, rfl⟩ | ⟨-, -, rfl⟩ | ⟨rest, -, rfl⟩ | ⟨rest, -, rfl⟩ | ⟨rest, -, -, rfl⟩ | ⟨b, rest, hin, hw⟩ :=
    step_cases h
  case inr.inr.inr.inr.inr =>
    exact ⟨b, rest, hin, onWrite_turns_display_on (s := { s with inbox := rest }) hw hs ht⟩
  all_goals exact absurd (hs.symm.trans ht) Bool.false_ne_true

end Sys2Proof.Machine
end

section
/-! PROOF. The statements of 43_data_writer.md: what a data byte stores (R201, R202), how the cursors advance (R203,
R204), and that it requests a render (R205). -/

namespace Sys2Proof.Machine

/-! ### The result of a data byte (R200) -/

/-- A data byte stores, advances and requests a render, in that order. -/
theorem exec_data (d : Byte) (s : State) :
    exec (.data d) s = .next ((s.memWrite s.targetAddr d).advance.armed true) := by
  rw [State.armed_eq, if_pos rfl]
  rfl

theorem effectiveColumn_eq (remap : Bool) (c : Column) :
    effectiveColumn remap c = if remap then 127 - c else c := by
  cases remap
  · rfl
  · exact effectiveColumn_true c

/-- Settles O29, by the cases of the cursor advance. -/
theorem dataByteResults : Obligations.DataByteResults := by
  intro s d col hcol
  have haddr : s.targetAddr.toNat = s.activePage.toNat * 128 + col.toNat := by
    rw [hcol, ← effectiveColumn_eq]
    exact pixAddr_toNat _ _
  rw [exec_data, State.advance_eq, ← haddr]
  refine ⟨fun hm => ?_, fun hm (hp : s.activePage ≠ 15#4) => ?_, fun hm hp => ?_⟩
  · simp [State.memWrite, hm]
  · simp [State.memWrite, hm, hp]
  · simp [State.memWrite, hm, hp]

/-- Settles O31: the column is seven bits wide, so its increment wraps at 128. -/
theorem pageModeAdvance : Obligations.PageModeAdvance := by
  intro s d hm
  obtain ⟨hpage, -, -⟩ := dataByteResults s d _ rfl
  exact ⟨_, hpage hm, BitVec.toNat_add _ _, rfl⟩

/-! ### What a data byte stores (R201, R202) -/

theorem effectiveColumn_toNat (remap : Bool) (c : Column) :
    (effectiveColumn remap c).toNat = if remap then 127 - c.toNat else c.toNat := by
  cases remap
  · rfl
  · exact Nat.mod_eq_of_lt (by simp only [W]; omega)

/-- Reads see pixel memory alone (R53). -/
theorem State.memRead_congr {s t : State} (h : t.pixmem = s.pixmem) (a : PixAddr) : t.memRead a = s.memRead a := by
  rw [State.memRead, h, State.memRead]

/-- From canonical memory, the byte read after a data byte: the one stored at the target, any other as before. -/
theorem exec_data_memRead {d : Byte} {s t : State} (h : exec (.data d) s = .next t) (hm : Memory.wf s.pixmem = true)
    (a : PixAddr) : t.memRead a = if a = s.targetAddr then d else s.memRead a := by
  obtain rfl := Host.Outcome.next.inj ((exec_data d s).symm.trans h)
  rw [← State.memRead_memWrite s _ a d hm]
  exact State.memRead_congr (State.advance_pixmem _) a

/-- Settles O30: the store decides every read, and neither the advance nor the request touches memory. -/
theorem dataByteStoresOneByte : Obligations.DataByteStoresOneByte := by
  intro s d hm
  have hread := exec_data_memRead (exec_data d s) hm
  refine ⟨_, exec_data d s, ?_, ?_, fun a ha => ?_⟩
  · rw [State.targetAddr, pixAddr_toNat, effectiveColumn_toNat]
  · rw [hread, if_pos rfl]
  · rw [hread, if_neg ha]

/-! ### The render a data byte requests (R205, R228) -/

/-- With the display off every pixel is dark (R228). -/
theorem State.renderPixel_of_displayOff {s : State} (h : s.displayOn = false) (x y : Nat) :
    s.renderPixel x y = s.params.pixelDark := by
  simp [State.renderPixel, h]

/-- A cell of the frame when the timer fires (R222, R223). -/
theorem State.fireTimer_cell (s : State) (x y : Nat) (hx : x < W) (hy : y < H) :
    s.fireTimer.cell (y * W + x) = s.renderPixel x y :=
  s.renderPass_cell x y hx hy

/-- Settles O33: the request is unconditional, and the data writer touches neither `display_on` nor the parameters. -/
theorem everyDataByteRequestsARender : Obligations.EveryDataByteRequestsARender := by
  intro s d
  obtain ⟨hpending, hquiet, harms⟩ := (s.memWrite s.targetAddr d).advance.armed_true_arms_once
  simp only [State.advance_redrawPending, State.advance_outbox, State.advance_params, State.memWrite_redrawPending,
    State.memWrite_outbox, State.memWrite_params] at hquiet harms
  refine ⟨_, exec_data d s, hpending, hquiet, harms, fun hoff x y hx hy => ?_⟩
  rw [State.fireTimer_cell _ x y hx hy, State.armed_renderPixel, State.renderPixel_of_displayOff (by simpa using hoff)]
  simp

/-! ### Data bytes in vertical mode (R204) -/

theorem State.byteClass_data {s : State} (hs : s.dataReady) : s.byteClass = .data := by
  obtain ⟨hp, hm, -⟩ := hs
  simp [State.byteClass, hp, hm]

/-- A page and a column are told apart by their index (R51). -/
theorem pixAddr_inj {pg pg' : Page} {c c' : Column} : pixAddr pg c = pixAddr pg' c' ↔ pg = pg' ∧ c = c' := by
  simp only [← BitVec.toNat_inj, pixAddr_toNat]
  omega

/-- The receiver forwards data bytes, they advance the page, and pixel memory is canonical. -/
def State.verticalReady (s : State) : Prop :=
  s.dataReady ∧ s.memoryMode = .vertical ∧ Memory.wf s.pixmem = true

/-- The byte on page `q` of a column in which `ds` stands from page `p` down, over the byte `old`. -/
def columnByte (p : Nat) (ds : List Byte) (q : Nat) (old : Byte) : Byte :=
  if p ≤ q then ds.getD (q - p) old else old

@[simp] theorem columnByte_nil (p q : Nat) (old : Byte) : columnByte p [] q old = old := by
  simp [columnByte]

/-- The first byte stands on the first page, and the others below it. -/
theorem columnByte_cons (p : Nat) (d : Byte) (ds : List Byte) (q : Nat) (old : Byte) :
    columnByte p (d :: ds) q old = columnByte (p + 1) ds q (if q = p then d else old) := by
  unfold columnByte
  obtain hlt | rfl | hgt := lt_trichotomy q p
  · rw [if_neg (by omega), if_neg (by omega), if_neg (by omega)]
  · simp
  · have hnext : q - p = q - (p + 1) + 1 := by omega
    rw [if_pos hgt.le, if_pos (Nat.succ_le_of_lt hgt), if_neg hgt.ne', hnext, List.getD_cons_succ]

/-- A byte appended stands right below the others. -/
theorem columnByte_append_singleton (p : Nat) (ds : List Byte) (d : Byte) (q : Nat) (old : Byte) :
    columnByte p (ds ++ [d]) q old = if q = p + ds.length then d else columnByte p ds q old := by
  induction ds generalizing p old with
  | nil => simp [columnByte_cons]
  | cons e ds ih =>
    rw [List.cons_append, columnByte_cons, ih, columnByte_cons, List.length_cons, Nat.add_right_comm, Nat.add_assoc]

/-- Where the bytes reach, nothing of the old contents is left. -/
theorem columnByte_of_lt {ds : List Byte} {q : Nat} (h : q < ds.length) (old : Byte) :
    columnByte 0 ds q old = ds.getD q 0 := by
  rw [columnByte, if_pos (Nat.zero_le q), Nat.sub_zero, List.getD_eq_getElem _ _ h, List.getD_eq_getElem _ _ h]

section Vertical
variable {s : State} {rest : List Event} (hs : s.verticalReady)
include hs

/-- One data byte in vertical mode: the page modulo 16, the column when the page wraps, and the one byte stored. -/
theorem step_vertical_data {d : Byte} (hin : s.inbox = .write d :: rest) :
    ∃ t, step s = .next t ∧ t.verticalReady ∧ t.inbox = rest ∧ t.segmentRemap = s.segmentRemap ∧
      t.activePage = s.activePage + 1 ∧
      t.activeColumn = (if s.activePage = 15 then s.activeColumn + 1 else s.activeColumn) ∧
      ∀ a, t.memRead a = if a = s.targetAddr then d else s.memRead a := by
  obtain ⟨hready, hvert, hwf⟩ := hs
  have ⟨_, _, hcont⟩ := hready
  have hstep := step_data hin (State.byteClass_data hready)
  have hread := exec_data_memRead (exec_data d { s with inbox := rest }) hwf
  have hwf' := exec_wf_pixmem (exec_data d { s with inbox := rest }) hwf
  rw [exec_data, andThen_next, State.endOfForwardedByte_of_continuous (by simpa [State.armed] using hcont)] at hstep
  refine ⟨_, hstep, ⟨?_, ?_, hwf'⟩, ?_, ?_, ?_, ?_, hread⟩
  · simpa [State.dataReady, State.armed] using hready
  all_goals simp [State.armed, State.advance_eq, hvert]

/-- Data bytes that do not reach past page 15 go down the column: byte `k` is stored `k` pages further, and the column
stays. -/
theorem run_vertical_data {ds : List Byte} (hin : s.inbox = writes ds ++ rest)
    (hlen : s.activePage.toNat + ds.length < 16) :
    ∃ t, run ds.length s = .next t ∧ t.verticalReady ∧ t.inbox = rest ∧ t.segmentRemap = s.segmentRemap ∧
      t.activePage.toNat = s.activePage.toNat + ds.length ∧ t.activeColumn = s.activeColumn ∧
      ∀ (pg : Page) (c : Column), t.memRead (pixAddr pg c) =
        if c = effectiveColumn s.segmentRemap s.activeColumn
        then columnByte s.activePage.toNat ds pg.toNat (s.memRead (pixAddr pg c)) else s.memRead (pixAddr pg c) := by
  induction ds generalizing s with
  | nil => exact ⟨s, rfl, hs, hin, rfl, rfl, rfl, by simp⟩
  | cons d ds ih =>
    obtain ⟨u, hstep, hu, huin, huremap, hupage, hucol, humem⟩ := step_vertical_data hs hin
    rw [List.length_cons] at hlen
    have hpage : u.activePage.toNat = s.activePage.toNat + 1 := by
      rw [hupage]
      exact BitVec.toNat_add_of_lt (by simp; omega)
    have hne : s.activePage ≠ 15 := fun h => by simp [h] at hlen; omega
    rw [if_neg hne] at hucol
    obtain ⟨t, hrun, ht, htin, htremap, htpage, htcol, htmem⟩ := ih hu huin (by omega)
    refine ⟨t, ?_, ht, htin, htremap.trans huremap, ?_, htcol.trans hucol, fun pg c => ?_⟩
    · rw [List.length_cons, run_succ, hstep, andThen_next, hrun]
    · rw [htpage, hpage, List.length_cons]
      omega
    · rw [htmem, humem, huremap, hucol, hpage]
      simp only [State.targetAddr, pixAddr_inj, ← BitVec.toNat_inj (x := pg), columnByte_cons]
      by_cases hc : c = effectiveColumn s.segmentRemap s.activeColumn <;> simp [hc]

end Vertical

/-- Settles O32: fifteen bytes go down the column from page 0 to page 15, where the sixteenth wraps the page. -/
theorem sixteenVerticalWritesFillAColumn : Obligations.SixteenVerticalWritesFillAColumn := by
  intro s ds rest hm hlen hready hvert hpage hin
  obtain rfl | ⟨ds, d, rfl⟩ := List.eq_nil_or_concat' ds
  · cases hlen
  replace hlen : ds.length = 15 := by simpa using hlen
  replace hin : s.inbox = writes ds ++ .write d :: rest := by simpa [writes] using hin
  obtain ⟨t, hrun, ht, htin, htremap, htpage, htcol, htmem⟩ :=
    run_vertical_data ⟨hready, hvert, hm⟩ hin (by simp [hpage, hlen])
  obtain ⟨u, hstep, -, huin, -, hupage, hucol, humem⟩ := step_vertical_data ht htin
  have hbottom : t.activePage = 15 := BitVec.eq_of_toNat_eq (by simp [htpage, hpage, hlen])
  refine ⟨u, ?_, ?_, ?_, huin, fun pg c => ?_⟩
  · rw [hlen] at hrun
    rw [run_add 15 1, hrun, andThen_next, run_succ, hstep, andThen_next, run_zero]
  · rw [hupage, hbottom]
    rfl
  · rw [hucol, if_pos hbottom, htcol]
    exact BitVec.toNat_add _ _
  · have hbyte := columnByte_append_singleton 0 ds d pg.toNat (s.memRead (pixAddr pg c))
    rw [columnByte_of_lt (by simp [hlen]; omega), hlen] at hbyte
    rw [humem, htmem, State.targetAddr, htremap, htcol, hbottom, hpage, hbyte]
    simp only [pixAddr_inj, ← BitVec.toNat_inj (x := pg)]
    by_cases hc : c = effectiveColumn s.segmentRemap s.activeColumn <;> simp [hc]

end Sys2Proof.Machine
end

section
/-! PROOF. The statements of 44_renderer.md: the transform (R223 to R228, R233) and its closed form (R230), the trigger
and its timer (R220 to R222, R232), and that with no render pending the frame shows the state (R231). -/

namespace Sys2Proof.Machine

/-! ### The frame function (R225 to R230) -/

/-- Bit `k` of a byte as R227 reads it, by a shift and a mask. -/
theorem shiftRight_and_one_eq (b : Byte) (k : Nat) : (b >>> k) &&& 1 = if b.getLsbD k then 1 else 0 := by
  have hone : (1 : Byte) = 1#8 := rfl
  rw [hone, BitVec.and_one_eq_setWidth_ofBool_getLsbD, BitVec.getLsbD_ushiftRight, Nat.add_zero]
  cases b.getLsbD k <;> rfl

/-- What the renderer computes for a pixel is the closed form of R230. -/
theorem State.renderPixel_eq_frameFunction (s : State) (x y : Nat) : s.renderPixel x y = s.frameFunction x y := by
  have hrow : s.rowsY y =
      if s.reverseRows then 127 - (y : Int) - s.startLine.toNat else (y : Int) + s.startLine.toNat := by
    simp only [State.rowsY, State.scrollY, H]
    split <;> omega
  simp only [State.renderPixel, State.frameFunction, State.pixel, State.virtualY, State.virtualX, hrow,
    shiftRight_and_one_eq]
  cases BitVec.getLsbD _ _ <;> cases s.invert <;> cases s.displayOn <;> rfl

/-- With the display on a pixel is lit when its bit of memory differs from `invert` (R227, R228). -/
theorem State.renderPixel_of_displayOn {s : State} (h : s.displayOn = true) (x y : Nat) :
    s.renderPixel x y =
      if s.pixel (s.virtualY y) (s.virtualX x) != s.invert then s.params.pixelLit else s.params.pixelDark := by
  simp [State.renderPixel, h]

/-- An `X_OFFSET` that is a multiple of the width shifts no column (R226). -/
theorem State.virtualX_of_xOffset {s : State} {x : Nat} (hx : x < W) (h : s.xOffset % W = 0) : s.virtualX x = x := by
  simp only [State.virtualX, W] at *
  omega

/-- With start line 0 each output row shows its own memory row, or with `reverse_rows` the mirrored one (R225, R226). -/
theorem State.virtualY_of_startLine {s : State} {y : Nat} (hy : y < H) (h : s.startLine = 0) :
    s.virtualY y = if s.reverseRows then 127 - y else y := by
  have hline : s.startLine.toNat = 0 := by rw [h]; rfl
  simp only [State.virtualY, State.rowsY, State.scrollY, hline, W, H] at *
  split <;> omega

/-- Settles O38: the rows and columns shown are those of the output, or the mirrored rows, and the bit is not
inverted. -/
theorem identityTransform : Obligations.IdentityTransform := by
  intro s x y hx hy hl hinv hon hoff
  have hbit : ∀ v : Nat, s.virtualY y = v → s.renderPixel x y =
      if (s.memRead (BitVec.ofNat 11 (v / 8 * 128 + x))).getLsbD (v % 8) then s.params.pixelLit
      else s.params.pixelDark := by
    rintro _ rfl
    rw [State.renderPixel_of_displayOn hon, State.virtualX_of_xOffset hx hoff, hinv, Bool.bne_false]
    rfl
  have hrow := State.virtualY_of_startLine hy hl
  exact ⟨fun hr => hbit y (hrow.trans (if_neg (Bool.eq_false_iff.mp hr))),
    fun hr => hbit (127 - y) (hrow.trans (if_pos hr))⟩

/-- Settles O41: the pixel read is the same, and it differs from one value of `invert` exactly when it equals the
other. -/
theorem invertComplementsEveryPixel : Obligations.InvertComplementsEveryPixel := by
  intro s x y hbin hon
  have hflipped : { s with invert := !s.invert }.renderPixel x y =
      if s.pixel (s.virtualY y) (s.virtualX x) != !s.invert then s.params.pixelLit else s.params.pixelDark :=
    State.renderPixel_of_displayOn (s := { s with invert := !s.invert }) hon x y
  rw [hflipped, State.renderPixel_of_displayOn hon]
  cases s.pixel (s.virtualY y) (s.virtualX x) <;> cases s.invert <;> simp [hbin, hbin.symm]

/-! ### The trigger (R220, R222) -/

/-- Settles O35, by the test of `redraw_pending`. -/
theorem renderRequestsCoalesce : Obligations.RenderRequestsCoalesce := by
  intro s
  refine ⟨fun h => ?_, fun h => if_pos h⟩
  simp [State.requestRender_eq, h]

/-- A `TimerFire` with a render pending renders (R222). -/
theorem step_timerFire {s : State} {rest : List Event} (hin : s.inbox = .timerFire :: rest)
    (hp : s.redrawPending = true) : step s = .next { s with inbox := rest }.fireTimer :=
  (step_event hin).trans (if_pos hp)

/-- Settles O37: the callback finds no request. -/
theorem timerFireNeedsARequest : Obligations.TimerFireNeedsARequest := by
  intro s rest hin hp
  exact (step_event hin).trans (if_neg (Bool.eq_false_iff.mp hp))

/-- After a render the frame shows the state (R230). -/
theorem State.fireTimer_shows (s : State) : s.fireTimer.shows := by
  intro x y hx hy
  rw [State.fireTimer_cell s x y hx hy, ← State.fireTimer_renderPixel, State.renderPixel_eq_frameFunction]

/-- Settles O36: the step is the render, which writes the frame and the flag. -/
theorem timerFireRendersTheFrame : Obligations.TimerFireRendersTheFrame := by
  intro s rest hin hp
  exact ⟨_, step_timerFire hin hp, rfl, State.fireTimer_shows { s with inbox := rest }⟩

/-- Settles O40: every cell is rendered, and every pixel is dark. -/
theorem displayOffRendersDark : Obligations.DisplayOffRendersDark := by
  intro s hoff x y hx hy
  rw [State.fireTimer_cell s x y hx hy, State.renderPixel_of_displayOff hoff]

/-- A data byte in continuous mode leaves a render pending, for which it armed the timer if none was (R205, R220). -/
theorem step_dataReady {s : State} {d : Byte} {rest : List Event} (hs : s.dataReady)
    (hin : s.inbox = .write d :: rest) :
    ∃ t, step s = .next t ∧ t.dataReady ∧ t.inbox = rest ∧ t.redrawPending = true ∧
      t.outbox =
        (if s.redrawPending then s.outbox else s.outbox ++ [.armTimer s.params.renderDelay]) ++ [.ack true] := by
  have hstep := step_data hin (State.byteClass_data hs)
  have ⟨_, _, hcont⟩ := hs
  rw [exec_data, State.armed_eq, if_pos rfl, andThen_next,
    State.endOfForwardedByte_of_continuous (by simpa using hcont)] at hstep
  refine ⟨_, hstep, ?_, ?_, ?_, ?_⟩
  · simpa [State.dataReady] using hs
  all_goals simp

/-- Settles O34: the first byte arms the timer, the second finds the render pending, and the callback renders. -/
theorem twoWritesOneRender : Obligations.TwoWritesOneRender := by
  intro s d e rest hs hquiet hin
  obtain ⟨t₁, hstep₁, hs₁, hin₁, hp₁, hout₁⟩ := step_dataReady hs hin
  obtain ⟨t₂, hstep₂, -, hin₂, hp₂, hout₂⟩ := step_dataReady hs₁ hin₁
  obtain ⟨u, hfire, hu, hshows⟩ := timerFireRendersTheFrame t₂ rest hin₂ hp₂
  refine ⟨t₂, u, ?_, ?_, hfire, by rw [hu], hshows⟩
  · rw [run_succ, hstep₁, andThen_next, run_succ, hstep₂, andThen_next, run_zero]
  · simp [hout₂, hp₁, hout₁, hquiet]

/-! ### With no render pending the frame shows the state (R231) -/

/-- All that a render reads (R230). -/
def State.displayed (s : State) : Memory × Byte × Bool × Bool × Bool × Int × Params :=
  (s.pixmem, s.startLine, s.reverseRows, s.invert, s.displayOn, s.xOffset, s.params)

theorem State.renderPixel_congr {s t : State} (h : t.displayed = s.displayed) (x y : Nat) :
    t.renderPixel x y = s.renderPixel x y := by
  cases s
  cases t
  simp only [State.displayed, Prod.mk.injEq] at h
  obtain ⟨rfl, rfl, rfl, rfl, rfl, rfl, rfl⟩ := h
  rfl

/-- From `s` to `t` no pending render is dropped, and when none is pending the frame and what it should show are as they
were. -/
def State.KeepsFresh (s t : State) : Prop :=
  t.redrawPending = false →
    s.redrawPending = false ∧ t.frame = s.frame ∧ ∀ x y, t.renderPixel x y = s.renderPixel x y

namespace State.KeepsFresh
variable {s t u : State}

theorem of_eq (hp : t.redrawPending = s.redrawPending) (hf : t.frame = s.frame) (hd : t.displayed = s.displayed) :
    s.KeepsFresh t :=
  fun h => ⟨hp.symm.trans h, hf, State.renderPixel_congr hd⟩

theorem trans (hst : s.KeepsFresh t) (htu : t.KeepsFresh u) : s.KeepsFresh u := by
  intro h
  obtain ⟨ht, hfu, hru⟩ := htu h
  obtain ⟨hs, hft, hrt⟩ := hst ht
  exact ⟨hs, hfu.trans hft, fun x y => (hru x y).trans (hrt x y)⟩

/-- A pending render stays pending. -/
theorem redrawPending (h : s.KeepsFresh t) (hs : s.redrawPending = true) : t.redrawPending = true :=
  Bool.of_not_eq_false fun ht => Bool.false_ne_true ((h ht).1.symm.trans hs)

theorem frameFresh (h : s.KeepsFresh t) (hs : s.FrameFresh) : t.FrameFresh := by
  intro ht x y hx hy
  obtain ⟨hp, hf, hr⟩ := h ht
  calc t.cell (y * 128 + x)
    _ = s.cell (y * 128 + x) := by rw [State.cell, hf, State.cell]
    _ = s.frameFunction x y := hs hp x y hx hy
    _ = t.frameFunction x y := by rw [← State.renderPixel_eq_frameFunction, ← hr, State.renderPixel_eq_frameFunction]

/-- The end of a byte's handling, forwarded and acknowledged, touches nothing the frame depends on (R101, R104). -/
theorem endOfForwardedByte_emit (s : State) (o : Output) : s.KeepsFresh (s.endOfForwardedByte.emit o) :=
  of_eq (by simp) (by simp) (by simp [State.displayed])

end State.KeepsFresh

/-- A data byte always leaves a render pending (R205). -/
theorem exec_data_redrawPending {d : Byte} {s t : State} (h : exec (.data d) s = .next t) : t.redrawPending = true := by
  obtain rfl := Host.Outcome.next.inj ((exec_data d s).symm.trans h)
  exact (State.armed_true_arms_once _).1

/-- An instruction that needs no redraw and is no data byte writes nothing a render reads (R141). -/
theorem exec_displayed_of_unneeded {i : Instr} {s t : State} (h : exec i s = .next t)
    (hn : redrawNeeded s.params i = false) (hd : ∀ d, i ≠ .data d) : t.displayed = s.displayed := by
  obtain ⟨hpar, hoff, -⟩ := exec_keeps h
  have hmem : t.pixmem = s.pixmem := by
    by_contra hne
    obtain ⟨d, rfl⟩ := exec_pixmem_writer h hne
    exact hd d rfl
  have hline : t.startLine = s.startLine := by
    by_contra hne
    obtain ⟨p, rfl⟩ := exec_startLine_writer h hne
    cases hn
  have hrows : t.reverseRows = s.reverseRows := by
    by_contra hne
    obtain rfl | rfl := exec_reverseRows_writer h hne <;> cases hn
  have hinv : t.invert = s.invert := by
    by_contra hne
    obtain rfl | rfl := exec_invert_writer h hne <;> cases hn
  have hon : t.displayOn = s.displayOn := by
    by_contra hne
    obtain rfl | rfl := exec_displayOn_writer h hne <;> cases hn
  simp only [State.displayed, hmem, hline, hrows, hinv, hon, hoff, hpar]

/-- An instruction that requests no render is no data byte and no display command. So it either needs no redraw, and
writes nothing a render reads, or runs with the display off, where every pixel is dark before and after (R231). -/
theorem exec_keepsFresh {i : Instr} {s t : State} (h : exec i s = .next t) : s.KeepsFresh t := by
  intro ht
  obtain ⟨hpar, -, -, hframe, -⟩ := exec_keeps h
  have hd : ∀ d, i ≠ .data d := by
    rintro d rfl
    exact absurd ht (by simp [exec_data_redrawPending h])
  have hflags := (exec_redrawPending h hd).symm.trans ht
  simp only [Bool.or_eq_false_iff, Bool.and_eq_false_iff] at hflags
  obtain ⟨⟨hs, hneeded | hoff⟩, hforced⟩ := hflags
  · exact ⟨hs, hframe, State.renderPixel_congr (exec_displayed_of_unneeded h hneeded hd)⟩
  · have hoff' : t.displayOn = false := by
      rw [← hoff]
      by_contra hne
      obtain rfl | rfl := exec_displayOn_writer h hne <;> cases hforced
    refine ⟨hs, hframe, fun x y => ?_⟩
    rw [State.renderPixel_of_displayOff hoff, State.renderPixel_of_displayOff hoff', hpar]

/-- A `Write`, by the kind of its byte (R102): apart from the instruction it may run, it touches the receiver and the
assembler only. -/
theorem onWrite_keepsFresh {b : Byte} {s t : State} (h : onWrite b s = .next t) : s.KeepsFresh t := by
  obtain ⟨-, e⟩ | ⟨-, u, hu, e⟩ | ⟨-, h8, -, e⟩ | ⟨-, -, u, hu, e⟩ := onWrite_cases b s <;>
    obtain rfl := Host.Outcome.next.inj (e.symm.trans h)
  case inl => exact .of_eq rfl rfl rfl
  case inr.inl => exact (exec_keepsFresh hu).trans (.endOfForwardedByte_emit u _)
  case inr.inr.inl =>
    have hbuf : s.KeepsFresh (s.bufferByte b h8) := .of_eq rfl rfl rfl
    exact hbuf.trans (.endOfForwardedByte_emit _ _)
  case inr.inr.inr =>
    have hbuf : s.KeepsFresh (s.append b) := .of_eq rfl rfl rfl
    have hidx : u.KeepsFresh { u with cmdIndex := 0 } := .of_eq rfl rfl rfl
    exact ((hbuf.trans (exec_keepsFresh hu)).trans hidx).trans (.endOfForwardedByte_emit _ _)

/-- A step on a bus event (R10). -/
theorem step_bus_keepsFresh {s t : State} {e : Event} {rest : List Event} (hin : s.inbox = e :: rest)
    (he : e.isBus = true) (h : step s = .next t) : s.KeepsFresh t := by
  rw [step_event hin] at h
  have hpop : s.KeepsFresh { s with inbox := rest } := .of_eq rfl rfl rfl
  cases e with
  | connect => obtain rfl := Host.Outcome.next.inj h; exact .of_eq rfl rfl rfl
  | read => obtain rfl := Host.Outcome.next.inj h; exact .of_eq rfl rfl rfl
  | write b => exact hpop.trans (onWrite_keepsFresh h)
  | timerFire => cases he

theorem State.fireTimer_frameFresh (s : State) : s.fireTimer.FrameFresh := fun _ => s.fireTimer_shows

/-- A `TimerFire` leaves a fresh frame (R231): with no render pending there is no such step. -/
theorem frameFresh_of_step_timerFire {s t : State} {rest : List Event} (hin : s.inbox = .timerFire :: rest)
    (h : step s = .next t) : t.FrameFresh := by
  cases hp : s.redrawPending with
  | true =>
    obtain rfl := Host.Outcome.next.inj ((step_timerFire hin hp).symm.trans h)
    exact State.fireTimer_frameFresh _
  | false => cases (timerFireNeedsARequest s rest hin hp).symm.trans h

/-- With nothing listed a pending render fires, as far as the model goes (log 2). -/
theorem step_quiet_pending {s : State} (hin : s.inbox = []) (hp : s.redrawPending = true) :
    step s = .next s.fireTimer :=
  (step_quiet hin).trans (if_pos hp)

/-- With nothing listed and no render pending nothing happens (R10). -/
theorem step_quiet_idle {s : State} (hin : s.inbox = []) (hp : s.redrawPending = false) : step s = .next s :=
  (step_quiet hin).trans (if_neg (Bool.eq_false_iff.mp hp))

/-- Settles O55, by the next event: a bus event keeps the frame fresh, and a render makes it fresh. -/
theorem frameInvariant : Obligations.FrameInvariant := by
  refine ⟨fun s t hs h => ?_, fun _ _ _ hin h => frameFresh_of_step_timerFire hin h⟩
  cases hin : s.inbox with
  | nil =>
    cases hp : s.redrawPending with
    | true =>
      obtain rfl := Host.Outcome.next.inj ((step_quiet_pending hin hp).symm.trans h)
      exact s.fireTimer_frameFresh
    | false =>
      obtain rfl := Host.Outcome.next.inj ((step_quiet_idle hin hp).symm.trans h)
      exact hs
  | cons e rest =>
    cases e with
    | timerFire => exact frameFresh_of_step_timerFire hin h
    | connect | write | read => exact (step_bus_keepsFresh hin rfl h).frameFresh hs

/-! ### An armed render fires (R221) -/

/-- The steps that take a list of bus events, by induction on the list. -/
theorem run_bus_keepsFresh (es : List Event) (s : State) {t : State} (hin : s.inbox = es)
    (hbus : ∀ e ∈ es, e.isBus = true) (h : run es.length s = .next t) : s.KeepsFresh t := by
  induction es generalizing s with
  | nil =>
    obtain rfl := Host.Outcome.next.inj h
    exact .of_eq rfl rfl rfl
  | cons e rest ih =>
    obtain ⟨he, hrest⟩ := List.forall_mem_cons.mp hbus
    obtain ⟨u, hu, hinbox⟩ := step_bus_event hin he
    rw [List.length_cons, run_succ, hu, andThen_next] at h
    exact (step_bus_keepsFresh hin he hu).trans (ih u hinbox hrest h)

/-- Settles O46: the render is still pending when the listed events are over, so the next step fires it (log 2). -/
theorem armedRenderEventuallyFires : Obligations.ArmedRenderEventuallyFires := by
  intro s hp hbus
  obtain ⟨t, hrun, hempty⟩ := run_bus_events s.inbox s rfl hbus
  have hpt : t.redrawPending = true := (run_bus_keepsFresh s.inbox s rfl hbus hrun).redrawPending hp
  refine ⟨t.fireTimer, ?_, rfl, hempty, t.fireTimer_shows⟩
  rw [run_add, hrun, andThen_next, run_succ, step_quiet_pending hempty hpt, andThen_next, run_zero]

end Sys2Proof.Machine
end

section
/-! PROOF. The statement of 70_reset_and_hazards.md: the reset state is a construction (R270), with the parameter values
chosen for it. -/

namespace Sys2Proof

/-- The gap between the pixel values is not 0: it is at least 1 and below `2 ^ 32` (D10). -/
theorem pixelGap_succ_ne_zero : BitVec.ofNat 32 (Config.pixelGap.val + 1) ≠ 0 := by
  have hlt : Config.pixelGap.val + 1 < 2 ^ 32 := Nat.succ_lt_succ Config.pixelGap.isLt
  intro h
  have hmod : (Config.pixelGap.val + 1) % 2 ^ 32 = 0 := congrArg BitVec.toNat h
  rw [Nat.mod_eq_of_lt hlt] at hmod
  exact Nat.succ_ne_zero _ hmod

/-- The parameters of `State.reset` have distinct pixel values, whatever free values they are built from (D10). -/
theorem Params.sh1107_binary : Params.sh1107.binary :=
  fun h => pixelGap_succ_ne_zero (add_eq_left.mp h)

namespace Machine

/-- Memory that lists no index reads as the unlisted value everywhere (D11). -/
theorem State.memRead_of_pixmem_nil {s : State} (h : s.pixmem = []) (a : PixAddr) : s.memRead a = Memory.unlisted := by
  rw [State.memRead, h, Memory.read]

/-- Settles O3: `State.reset` is by definition the construction with `Params.sh1107` and empty pixel memory; its pixel
values differ by a gap that is not 0. -/
theorem resetIsAConstruction : Obligations.ResetIsAConstruction :=
  ⟨Params.sh1107, Config.xOffset, Frame.build Config.frameInit, State.construct_next _ _ _ _, ⟨rfl, rfl⟩,
    Params.sh1107_binary, rfl, rfl, rfl, rfl, State.memRead_of_pixmem_nil rfl⟩

end Machine
end Sys2Proof
end
